-- ==== Sys2Proof/Word.lean ====
section
/-! DEFINITION. The words of the IR-volume block (20_memory.md rules R53 to R57, 30_encoding.md rule R72):
a byte is what a table read returns and what an output write carries; a word is the 32 bits of a frame. -/

namespace Sys2Proof

/-- Eight bits: a table entry, an output byte, one field of the command word (R57, R72). -/
abbrev Byte := BitVec 8

/-- The 32-bit command word `W`; bit 0 is the bit received first (R72). -/
abbrev Word := BitVec 32

end Sys2Proof
end

