-- ==== Sys2Proof/Config.lean ====
section
/-! DEFINITION. The implementation parameters of the block (00_scope.md rule R6), the reference configuration
REFCFG, the input tuple of one cycle (rule R9), and the one free value of the model: the input ports in a cycle for
which no stimulus has been given. -/

namespace Sys2Proof

/-- In which cycles the idle clear is evaluated (R6 row `CLEAR_SCOPE`, R136). -/
inductive ClearScope where
  | idleOnly
  | everyCycle
deriving DecidableEq, Repr

/-- The input tuple `(rst, ir_in, gtick, att_ack)` the block reads in one cycle (R9, R43).
`true` is the level 1; `irIn = true` is the idle level of the line (R11). -/
structure Input where
  rst : Bool
  irIn : Bool
  gtick : Bool
  attAck : Bool
deriving DecidableEq, Repr, Inhabited

/-- Bits per frame, fixed by the source (R6 row `FRAME_BITS`). -/
abbrev frameBits : Nat := 32
/-- Highest volume, fixed by the source (R6 row `VOL_MAX`). -/
abbrev volMax : Nat := 99
/-- Cap of the repeat count, fixed by the source (R6 row `REPEAT_CAP`). -/
abbrev repeatCap : Nat := 5

/-- The configuration: the parameters of R6 that the source leaves open, each an elaboration-time constant.
Which values are legal is `Config.legal` (R7). -/
structure Config where
  /-- `PULSE_W`: width of `pcnt` and `lead` in bits. -/
  pulseW : Nat
  /-- `PULSE_CEIL`: saturation ceiling of the pulse counter, in `clk` cycles. -/
  pulseCeil : Nat
  /-- `GAP_W`: width of `gap` in bits. -/
  gapW : Nat
  /-- `GAP_CEIL`: clamp ceiling of `gap`, in `gtick` strobes. -/
  gapCeil : Nat
  /-- `T_GAP`: minimum gap threshold, in strobes. -/
  tGap : Nat
  /-- `T_REPEAT`: repeat threshold, in strobes. -/
  tRepeat : Nat
  /-- `T_IDLE`: idle-reset threshold, in strobes. -/
  tIdle : Nat
  /-- `CLEAR_SCOPE`. -/
  clearScope : ClearScope
  /-- `ADDR`: the address byte. -/
  addr : Byte
  /-- `CMD_UP`. -/
  cmdUp : Byte
  /-- `CMD_DOWN`. -/
  cmdDown : Byte
  /-- `CMD_MUTE`. -/
  cmdMute : Byte
  /-- `WIPER_OPCODE`: first byte of the attenuator transaction. -/
  wiperOpcode : Byte
  /-- `ATTEN_LUT[0..99]`. -/
  attenLut : List Byte
  /-- `SEG_LUT[0..9]`. -/
  segLut : List Byte
  /-- `SEG_BLANK`. -/
  segBlank : Byte
deriving DecidableEq, Repr

/-- The REFCFG attenuation table, `ceil(255 * v * v / 9801)` (R167). -/
def Config.refAttenLut : List Byte :=
  (List.range 100).map fun v => BitVec.ofNat 8 ((255 * v * v + 9800) / 9801)

/-- The REFCFG segment table (R170). -/
def Config.refSegLut : List Byte :=
  [0x3F, 0x06, 0x5B, 0x4F, 0x66, 0x6D, 0x7D, 0x07, 0x7F, 0x6F]

/-- REFCFG, the reference configuration of R6.
DESIGN CHOICE, unsafe: the reset state holds it (assumption log entry 1).
PRESUMED, unsafe: the values the spec marks GK are nobody's measured constants (entry 2). -/
def Config.refcfg : Config where
  pulseW := 9
  pulseCeil := 500
  gapW := 10
  gapCeil := 1023
  tGap := 50
  tRepeat := 250
  tIdle := 75
  clearScope := .idleOnly
  addr := 0x07
  cmdUp := 0x07
  cmdDown := 0x0B
  cmdMute := 0x0F
  wiperOpcode := 0x11
  attenLut := Config.refAttenLut
  segLut := Config.refSegLut
  segBlank := 0x00

/-- FREE VALUE: the input ports in the `n`-th cycle for which the stimulus held by the state gives no sample. The
spec puts no constraint on the inputs (R43), so nothing is known of this constant.
DESIGN CHOICE, safe: assumption log entry 3. -/
opaque Config.freeInput : Nat → Input

end Sys2Proof
end

