-- ==== Sys2Proof/Syntax.lean ====
section
/-! DEFINITION. The instructions of the block: the three command words of 30_encoding.md rule R74, one constructor per
row of spec/opcode_table.json. No instruction has an operand field. -/

namespace Sys2Proof

/-- The recognised commands (R74). A DecodedCommand of the spec is one of these or `UNREC`. -/
inductive Instr where
  /-- `VOL_UP` (R150), DecodedCommand `UP`. -/
  | volUp
  /-- `VOL_DOWN` (R151), DecodedCommand `DOWN`. -/
  | volDown
  /-- `MUTE` (R152), DecodedCommand `MUTE`. -/
  | mute
deriving DecidableEq, Repr

/-- Why a word is `UNREC`: the drop causes of 60_exceptions.md rule R201. The block records none of them. -/
inductive Reject where
  /-- `BAD_ADDR0`: byte 0 is not `ADDR`. -/
  | badAddr0
  /-- `BAD_ADDR1`: byte 0 is `ADDR` and byte 1 is not. -/
  | badAddr1
  /-- `BAD_CHECK`: byte 3 is not the complement of byte 2. -/
  | badCheck
  /-- `UNKNOWN_CMD`: byte 2 is none of the three codes. -/
  | unknownCmd
  /-- A byte list that is not the four bytes of a frame (R72: "there is no other length"). The block never sees one,
  since its word is always 32 bits; only the byte-level decoder answers it.
  DESIGN CHOICE, safe: assumption log entry 12. -/
  | notAFrame
deriving DecidableEq, Repr

end Sys2Proof
end

