-- ==== Sys2Proof/WellFormed.lean ====
section
/-! DEFINITION. Which configurations are legal (00_scope.md rule R7, constraints K1 to K5) and when an instruction
is well formed under a configuration. An instruction has no operand, so all that can be wrong with one is that its
command code is taken by another command (K3). K6 is physical and outside the model. -/

namespace Sys2Proof

/-- A list of bytes is non-decreasing. -/
def nonDecreasing : List Byte → Bool
  | a :: b :: rest => decide (a ≤ b) && nonDecreasing (b :: rest)
  | _ => true

/-- K1: `2 <= PULSE_CEIL <= 2^PULSE_W`. -/
def Config.k1 (c : Config) : Bool :=
  decide (2 ≤ c.pulseCeil ∧ c.pulseCeil ≤ 2 ^ c.pulseW)

/-- K2: `0 < T_GAP < T_IDLE < T_REPEAT <= GAP_CEIL < 2^GAP_W`. -/
def Config.k2 (c : Config) : Bool :=
  decide (0 < c.tGap ∧ c.tGap < c.tIdle ∧ c.tIdle < c.tRepeat ∧ c.tRepeat ≤ c.gapCeil ∧ c.gapCeil < 2 ^ c.gapW)

/-- K3: the three command codes are pairwise different. -/
def Config.k3 (c : Config) : Bool :=
  decide (c.cmdUp ≠ c.cmdDown ∧ c.cmdUp ≠ c.cmdMute ∧ c.cmdDown ≠ c.cmdMute)

/-- K4: `ATTEN_LUT` has 100 entries, starts at 0, ends at 255 and is non-decreasing. -/
def Config.k4 (c : Config) : Bool :=
  decide (c.attenLut.length = 100 ∧ c.attenLut[0]? = some 0 ∧ c.attenLut[99]? = some 255) &&
    nonDecreasing c.attenLut

/-- K5: `SEG_LUT` has 10 entries and `SEG_BLANK != SEG_LUT[0]`. -/
def Config.k5 (c : Config) : Bool :=
  decide (c.segLut.length = 10 ∧ c.segLut[0]? ≠ some c.segBlank)

/-- R7: "A configuration is legal only when all of the following hold". -/
def Config.legal (c : Config) : Bool :=
  c.k1 && c.k2 && c.k3 && c.k4 && c.k5

/-- The command code of an instruction (R74). -/
def Instr.code (c : Config) : Instr → Byte
  | .volUp => c.cmdUp
  | .volDown => c.cmdDown
  | .mute => c.cmdMute

/-- An instruction is well formed when no other instruction has its code (K3). -/
def Instr.wellFormed (c : Config) (i : Instr) : Bool :=
  match i with
  | .volUp => decide (c.cmdUp ≠ c.cmdDown ∧ c.cmdUp ≠ c.cmdMute)
  | .volDown => decide (c.cmdDown ≠ c.cmdUp ∧ c.cmdDown ≠ c.cmdMute)
  | .mute => decide (c.cmdMute ≠ c.cmdUp ∧ c.cmdMute ≠ c.cmdDown)

end Sys2Proof
end

