-- ==== Sys2Proof/Machine/State.lean ====
section
/-! DEFINITION. The state of the block: the 17 registers of 10_state.md rule R20, each with its width, the
configuration that parameterises the machine (00_scope.md rule R6), and the model's own bookkeeping of the
environment (stimulus, cycle number, observation trace). The outcomes a step may stop with, and the reset state
(rule R41). -/

namespace Sys2Proof.Machine

/-- The values of the sequencer state `st`, the block's program counter (R22). Their binary encoding is not
specified and no rule depends on it. -/
inductive Seq where
  /-- `IDLE`: waits for a falling edge (R101). -/
  | idle
  /-- `LEAD_LO`: measures the leader's low phase (R102). -/
  | leadLo
  /-- `LEAD_HI`: measures the leader's high phase (R103). -/
  | leadHi
  /-- `BIT_LO`: measures a bit's low phase (R105). -/
  | bitLo
  /-- `BIT_HI`: waits out a bit's high phase (R106). -/
  | bitHi
  /-- `STOP_LO`: waits out the stop pulse's low phase (R107). -/
  | stopLo
  /-- `OUT_SEL`: attenuator select asserted (R176). -/
  | outSel
  /-- `OUT_OPC`: attenuator opcode byte offered (R177). -/
  | outOpc
  /-- `OUT_DATA`: attenuator data byte offered (R178). -/
  | outData
  /-- `OUT_TENS`: tens display write (R179). -/
  | outTens
  /-- `OUT_ONES`: ones display write (R180). -/
  | outOnes
deriving DecidableEq, Repr

/-- The output events an observer records (R52). -/
inductive OutEvent where
  /-- `AttByte(v)`: the attenuator takes a byte. -/
  | attByte (v : Byte)
  /-- `DispTens(v)`: the tens destination is written. -/
  | dispTens (v : Byte)
  /-- `DispOnes(v)`: the ones destination is written. -/
  | dispOnes (v : Byte)
deriving DecidableEq, Repr

/-- Why a step may fault: there is no reason. "A model of the block therefore has no fault outcome for any input
sequence" (R200), so the type has no constructor. -/
inductive Fault where
deriving DecidableEq, Repr

/-- Why a step may be refused. -/
inductive Refusal where
  /-- Raised by an arm of `exec` whose instruction has no meaning yet; no arm raises it now. Safe: nothing is
  claimed of such a step. -/
  | notModelled (mnemonic : String)
  /-- Raised by `step` when the configuration breaks R7: "a configuration that breaks one is refused". Safe: the
  spec gives such a block no behaviour. -/
  | illegalConfig
  /-- Raised by a table read outside the table: "A model gives `MemRead` no meaning outside the table (it refuses; it
  does not return a value)" (R50). Safe: no state that a run reaches raises it (R34). -/
  | lookupOutOfRange
deriving DecidableEq, Repr

/-- The machine. The configuration first, then the registers of R20 in the order of its table, then the model's own
fields. -/
structure State where
  /-- The parameters of R6; no step changes them (assumption log entry 1). -/
  cfg : Config
  /-- `st`, the sequencer state (R22). -/
  st : Seq
  /-- `ir_q`, 1 bit: the previous sample of the line (R24). -/
  irQ : Bool
  /-- `pcnt`, `PULSE_W` bits: the pulse counter (R25). A natural with the invariant of R36 (D22; entry 6). -/
  pcnt : Nat
  /-- `lead`, `PULSE_W` bits: the leader's low-phase measurement (R26). -/
  lead : Nat
  /-- `frame`, 32 bits: the frame shift register (R27). -/
  frame : Word
  /-- `nbits`, 6 bits: bits shifted into `frame` (R28). -/
  nbits : BitVec 6
  /-- `last`, 2 bits enumerated: last accepted command, `none` for `NONE` (R29). -/
  last : Option Instr
  /-- `rcount`, 3 bits: repeat count, 0 to 5 (R30). -/
  rcount : BitVec 3
  /-- `gap`, `GAP_W` bits: strobes since the last acceptance, clamped (R31). A natural, as `pcnt`. -/
  gap : Nat
  /-- `cur`, 7 bits: current volume (R32). -/
  cur : BitVec 7
  /-- `tens`, 4 bits: tens digit of the current volume (R32). -/
  tens : BitVec 4
  /-- `ones`, 4 bits: ones digit of the current volume (R32). -/
  ones : BitVec 4
  /-- `sav_cur`, 7 bits: saved volume (R32). -/
  savCur : BitVec 7
  /-- `sav_tens`, 4 bits: saved tens digit (R32). -/
  savTens : BitVec 4
  /-- `sav_ones`, 4 bits: saved ones digit (R32). -/
  savOnes : BitVec 4
  /-- `seg_tens`, 8 bits: pattern last written to the tens display (R33). -/
  segTens : Byte
  /-- `seg_ones`, 8 bits: pattern last written to the ones display (R33). -/
  segOnes : Byte
  /-- MODEL'S OWN: the input tuples of the coming cycles, the current cycle's first (entry 3). -/
  inputs : List Input
  /-- MODEL'S OWN: how many free input tuples have been drawn, used when `inputs` is empty (entry 3). -/
  freeCount : Nat
  /-- MODEL'S OWN: the number of the current cycle, 0 being the first after a reset (R9; entry 5). -/
  cycle : Nat
  /-- MODEL'S OWN: the observation trace, output events with their cycle numbers, oldest first (D16; entry 5). -/
  trace : List (Nat × OutEvent)
deriving DecidableEq, Repr

/-- The reset state of a block built with configuration `c` (R41): every register at the value the rule's table
gives. No stimulus is pending and nothing has been observed. -/
def State.resetWith (c : Config) : State where
  cfg := c
  st := .outSel
  irQ := false
  pcnt := 0
  lead := 0
  frame := 0
  nbits := 0
  last := none
  rcount := 0
  gap := 0
  cur := 0
  tens := 0
  ones := 0
  savCur := 0
  savTens := 0
  savOnes := 0
  segTens := c.segBlank
  segOnes := c.segBlank
  inputs := []
  freeCount := 0
  cycle := 0
  trace := []

/-- The machine right after reset (R41), built with REFCFG (assumption log entry 1). -/
def State.reset : State := State.resetWith Config.refcfg

end Sys2Proof.Machine
end

