-- ==== Sys2Proof/Machine/Flags.lean ====
section
/-! DEFINITION. The block stores no flag. The two conditions that other descriptions might call flags are functions
of the registers (10_state.md rule R37). -/

namespace Sys2Proof.Machine

/-- `muted := (cur == 0) and (sav_cur > 0)` (R37). No rule reads it. -/
def State.muted (s : State) : Bool := s.cur == 0 && decide (0 < s.savCur.toNat)

/-- `at_cap := (rcount == REPEAT_CAP)` for a repeat count (R37), read by R132 and R136. -/
def atCap (rcount : BitVec 3) : Bool := rcount.toNat == repeatCap

end Sys2Proof.Machine
end

