-- ==== Sys2Proof/Machine/Operands.lean ====
section
/-! DEFINITION. What an operation reads: the input tuple of the current cycle (R9, R43), the implicit operands of the
three instructions (the six volume registers, 44_volume_model.md), and the narrowing of a natural number to a
register's width (00_scope.md rule R10). -/

namespace Sys2Proof.Machine

/-- The input tuple of the current cycle: the stimulus's first sample, and where the stimulus has none a free value
(assumption log entry 3). -/
def State.input (s : State) : Input :=
  match s.inputs with
  | x :: _ => x
  | [] => Config.freeInput s.freeCount

/-- The six volume registers as one value, written `(cur, tens, ones | sav_cur, sav_tens, sav_ones)` in the spec. -/
structure Volume where
  cur : BitVec 7
  tens : BitVec 4
  ones : BitVec 4
  savCur : BitVec 7
  savTens : BitVec 4
  savOnes : BitVec 4
deriving DecidableEq, Repr

/-- Read the volume registers. -/
def State.volume (s : State) : Volume :=
  { cur := s.cur, tens := s.tens, ones := s.ones,
    savCur := s.savCur, savTens := s.savTens, savOnes := s.savOnes }

/-- Write the volume registers, all six at once (R152: "the six writes are one simultaneous move"). -/
def State.setVolume (s : State) (v : Volume) : State :=
  { s with cur := v.cur, tens := v.tens, ones := v.ones,
           savCur := v.savCur, savTens := v.savTens, savOnes := v.savOnes }

/-- Store a natural number in a register of `w` bits. Every sum is computed in the naturals and narrowed once (R10);
no reachable state narrows a number that does not fit (R34 to R36; assumption log entry 7). -/
def narrow (w n : Nat) : BitVec w := BitVec.ofNat w n

end Sys2Proof.Machine
end

