-- ==== Sys2Proof/Machine/Ops.lean ====
section
/-! DEFINITION. The named operations every cycle is built from: table reads and output writes (20_memory.md rules R50,
R52), the block's one form of exception entry, `abort` (60_exceptions.md rule R202), the rules in force in every
cycle (idle clear R136, inter-command counter R137, previous sample R111), and the reset of a cycle (R41). -/

namespace Sys2Proof.Machine

/-- The two read-only table spaces (R50). -/
inductive Table where
  | attenLut
  | segLut
deriving DecidableEq, Repr

/-- The three output destinations (R52). -/
inductive Dest where
  | att
  | dispTens
  | dispOnes
deriving DecidableEq, Repr

/-- The bytes of a table. -/
def Config.table (c : Config) : Table → List Byte
  | .attenLut => c.attenLut
  | .segLut => c.segLut

/-- `MemRead(T, i, 1)` (R50): byte `i` of the table, no value outside it. -/
def memRead (c : Config) (t : Table) (i : Nat) : Option Byte := (Config.table c t)[i]?

/-- Record an output event with the number of the cycle it happens in (D16). -/
def State.record (s : State) (e : OutEvent) : State := { s with trace := s.trace ++ [(s.cycle, e)] }

/-- `MemWrite(P, 1, v)` (R52): hand the byte to the attenuator, or put it in the display's holding register (R33).
Each write is one event. -/
def State.memWrite (s : State) (p : Dest) (v : Byte) : State :=
  match p with
  | .att => s.record (.attByte v)
  | .dispTens => { s.record (.dispTens v) with segTens := v }
  | .dispOnes => { s.record (.dispOnes v) with segOnes := v }

/-- Clear the decoder's transient registers (R109). -/
def State.clearTransient (s : State) : State := { s with pcnt := 0, lead := 0, frame := 0, nbits := 0 }

/-- `abort(cause)` (R202): the one fall-back every timeout takes. The frame is given up, the block returns to `IDLE`,
nothing is saved and no cause is recorded (R200). There is no return operation: the decoder is ready in the next
cycle (R203). -/
def State.abort (s : State) : State := { s.clearTransient with st := .idle }

/-- The environment moves to the next cycle: the sample just read is used up, and the cycle number advances (R9). -/
def State.nextSample (s : State) : State :=
  { s with inputs := s.inputs.tail,
           freeCount := if s.inputs.isEmpty then s.freeCount + 1 else s.freeCount,
           cycle := s.cycle + 1 }

/-- Whether the idle clear is evaluated in this cycle (R136 `in_scope`). -/
def State.clearInScope (s : State) : Bool :=
  match s.cfg.clearScope with
  | .idleOnly => s.st == .idle
  | .everyCycle => true

/-- Whether the idle clear fires (R136), from the values at the start of the cycle and the cycle's `accept`. -/
def State.clearFires (s : State) (accept : Bool) : Bool :=
  s.clearInScope && !accept && atCap s.rcount && decide (s.cfg.tIdle < s.gap)

/-- The next value of `gap` (R137): an acceptance zeroes it, a strobe adds one up to the ceiling. -/
def State.nextGap (s : State) (accept : Bool) : Nat :=
  if accept then 0
  else if s.input.gtick then min (s.gap + 1) s.cfg.gapCeil
  else s.gap

/-- The idle clear's writes (R136); they win over the gate's write-back (R138). -/
def State.idleClear (t : State) (fires : Bool) : State :=
  if fires then { t with last := none, rcount := 0 } else t

/-- The end of a cycle. `s` is the state at its start, `t` holds the sequencer's writes; added are the rules that run
in every cycle with `rst == 0` on the values of `s`: the idle clear (R136), the inter-command counter (R137), the
previous-sample register (R111). -/
def State.endCycle (s : State) (accept : Bool) (t : State) : State :=
  ({ t.idleClear (s.clearFires accept) with gap := s.nextGap accept, irQ := s.input.irIn }).nextSample

/-- A cycle with `rst == 1` (R41, R220): every register takes its reset value. The next cycle is cycle 0 (R220); the
observer keeps what it has recorded, and the stimulus goes on (assumption log entry 5). -/
def State.resetCycle (s : State) : State :=
  { State.resetWith s.cfg with
      inputs := s.inputs.tail,
      freeCount := if s.inputs.isEmpty then s.freeCount + 1 else s.freeCount,
      trace := s.trace }

end Sys2Proof.Machine
end

