-- ==== Sys2Proof/Machine/Gate.lean ====
section
/-! DEFINITION. CommandGate (43_command_gate.md): the answer to a recognised command, rules 1 to 3 evaluated in order
(R131 to R134). Rules 4 and 5 run in every cycle and are in Machine/Ops.lean (R136, R137). -/

namespace Sys2Proof.Machine

/-- The gate's output (R130): the signal `accept` and the next values of `last` and `rcount`. -/
structure GateAnswer where
  accept : Bool
  last : Option Instr
  rcount : BitVec 3
deriving DecidableEq, Repr

/-- The auto-repeat fast path (R132): the count is at its cap, and the command is not `MUTE`. -/
def fastPath (rcount : BitVec 3) (cmd : Instr) : Bool := atCap rcount && cmd != .mute

/-- `gate(last, rcount, gap, cmd)` (R134). -/
def gate (c : Config) (last : Option Instr) (rcount : BitVec 3) (gap : Nat) (cmd : Instr) : GateAnswer :=
  if gap < c.tGap then ⟨false, last, rcount⟩
  else if last = some cmd then
    if c.tRepeat ≤ gap ∨ fastPath rcount cmd = true then
      ⟨true, last, narrow 3 (min (rcount.toNat + 1) repeatCap)⟩
    else ⟨false, last, rcount⟩
  else ⟨true, some cmd, 1⟩

/-- The gate's answer to a command in the present state (R130: the registers at the start of the Done cycle). -/
def State.gateAnswer (s : State) (cmd : Instr) : GateAnswer := gate s.cfg s.last s.rcount s.gap cmd

end Sys2Proof.Machine
end

