-- ==== Sys2Proof/Machine/Volume.lean ====
section
/-! DEFINITION. VolumeModel (44_volume_model.md) and the meanings of the three instructions. `volUp`, `volDown` and
`mute` are the volume rules R150 to R152; the meaning of an instruction is the Done cycle its word gets (46_orchestrator.md
rule R175): the gate's answer, the volume rule if it is accepted, and the start of the output sequence. -/

namespace Sys2Proof.Machine

/-- `VOL_UP` on the volume registers (R150). -/
def volUp (v : Volume) : Volume :=
  if v.cur.toNat = volMax then v
  else if v.ones.toNat + 1 = 10 then
    { v with cur := narrow 7 (v.cur.toNat + 1), ones := 0, tens := narrow 4 (v.tens.toNat + 1) }
  else { v with cur := narrow 7 (v.cur.toNat + 1), ones := narrow 4 (v.ones.toNat + 1) }

/-- `VOL_DOWN` on the volume registers (R151). -/
def volDown (v : Volume) : Volume :=
  if v.cur.toNat = 0 then v
  else if v.ones.toNat = 0 then
    { v with cur := narrow 7 (v.cur.toNat - 1), ones := 9, tens := v.tens - 1 }
  else { v with cur := narrow 7 (v.cur.toNat - 1), ones := narrow 4 (v.ones.toNat - 1) }

/-- `MUTE` on the volume registers (R152): engage when there is a volume, else release. -/
def mute (v : Volume) : Volume :=
  if 0 < v.cur.toNat then
    { cur := 0, tens := 0, ones := 0, savCur := v.cur, savTens := v.tens, savOnes := v.ones }
  else
    { cur := v.savCur, tens := v.savTens, ones := v.savOnes, savCur := 0, savTens := 0, savOnes := 0 }

/-- What the Done cycle of an accepted command writes (R175, R135): the gate's registers, the volume by the command's
own rule, the transient clear (R109), and the start of the output sequence. -/
def State.accepted (s : State) (g : GateAnswer) (apply : Volume → Volume) : State :=
  { s.clearTransient.setVolume (apply s.volume) with last := g.last, rcount := g.rcount, st := .outSel }

/-- What the Done cycle of a rejected command writes (R175, R135): the gate's registers come back unchanged, the
transient registers are cleared, the block returns to `IDLE`. -/
def State.rejected (s : State) (g : GateAnswer) : State :=
  { s.clearTransient with last := g.last, rcount := g.rcount, st := .idle }

/-- The Done cycle of the recognised command `cmd`, whose volume rule is `apply` (R175). -/
def State.commandCycle (s : State) (cmd : Instr) (apply : Volume → Volume) : State :=
  let g := s.gateAnswer cmd
  if g.accept then s.endCycle true (s.accepted g apply) else s.endCycle false (s.rejected g)

/-- The meaning of `VOL_UP` (R150, R175). -/
def execVolUp (s : State) : Host.Outcome State Fault Refusal := .next (s.commandCycle .volUp volUp)

/-- The meaning of `VOL_DOWN` (R151, R175). -/
def execVolDown (s : State) : Host.Outcome State Fault Refusal := .next (s.commandCycle .volDown volDown)

/-- The meaning of `MUTE` (R152, R175). -/
def execMute (s : State) : Host.Outcome State Fault Refusal := .next (s.commandCycle .mute mute)

end Sys2Proof.Machine
end

