-- ==== Sys2Proof/Machine/Dispatch.lean ====
section
/-! DEFINITION. One arm per instruction. `exec i s` is the Done cycle of the state `s` when the word received decodes to
`i` (46_orchestrator.md rule R175). -/

namespace Sys2Proof.Machine

def exec (i : Instr) (s : State) : Host.Outcome State Fault Refusal :=
  match i with
  | .volUp => Sys2Proof.Machine.execVolUp s
  | .volDown => Sys2Proof.Machine.execVolDown s
  | .mute => Sys2Proof.Machine.execMute s

end Sys2Proof.Machine
end

