-- ==== Sys2Proof/Decode.lean ====
section
/-! DEFINITION. The frame validator (42_frame_validator.md rules R120 to R123), total on any word and any byte list;
after it the encoder: the word of an instruction (30_encoding.md rule R74) and a word as phases on the line
(rules R70, R72, R78). -/

namespace Sys2Proof

/-- Byte 0, `W[7:0]`, received first (R120). -/
def addr0 (w : Word) : Byte := w.extractLsb' 0 8
/-- Byte 1, `W[15:8]` (R120). -/
def addr1 (w : Word) : Byte := w.extractLsb' 8 8
/-- Byte 2, `W[23:16]` (R120). -/
def cmdByte (w : Word) : Byte := w.extractLsb' 16 8
/-- Byte 3, `W[31:24]`, received last (R120). -/
def chkByte (w : Word) : Byte := w.extractLsb' 24 8

/-- `validate` (R121): the command a word selects, or why it is `UNREC`, tested in the order address 0, address 1,
checksum, command (R206 item 3). -/
def decode (c : Config) (w : Word) : Except Reject Instr :=
  if addr0 w ≠ c.addr then .error .badAddr0
  else if addr1 w ≠ c.addr then .error .badAddr1
  else if chkByte w ≠ ~~~(cmdByte w) then .error .badCheck
  else if cmdByte w = c.cmdUp then .ok .volUp
  else if cmdByte w = c.cmdDown then .ok .volDown
  else if cmdByte w = c.cmdMute then .ok .mute
  else .error .unknownCmd

/-- Assemble the word from its four bytes, byte 0 being the one received first (R53, R72). -/
def wordOfBytes (b0 b1 b2 b3 : Byte) : Word := b3 ++ b2 ++ b1 ++ b0

/-- Decode the four bytes of a frame in their order of arrival; any other list is refused by name. -/
def decodeBytes (c : Config) : List Byte → Except Reject Instr
  | [b0, b1, b2, b3] => decode c (wordOfBytes b0 b1 b2 b3)
  | _ => .error .notAFrame

/-- The bytes of a word in their order of arrival (R53). -/
def bytesOfWord (w : Word) : List Byte := [addr0 w, addr1 w, cmdByte w, chkByte w]

/-- The instruction the decoder reads from a table row's bits under REFCFG, the configuration the table's numbers
are written in. A row is one 32-bit word (R72); a number that does not fit one is no frame. -/
def decodeTableWord (nbits w : Nat) : Option Instr :=
  let v := w % 2 ^ nbits
  if v < 2 ^ frameBits then (decodeBytes Config.refcfg (bytesOfWord (BitVec.ofNat 32 v))).toOption else none

/-- The word of an instruction (R74): address, address, command code, complement of the code, byte 0 first. -/
def encode (c : Config) (i : Instr) : Word :=
  wordOfBytes c.addr c.addr (i.code c) (~~~(i.code c))

/-- The bytes of an instruction in their order of arrival. -/
def encodeBytes (c : Config) (i : Instr) : List Byte :=
  [c.addr, c.addr, i.code c, ~~~(i.code c)]

/-- One phase: `n` consecutive samples of the line at one level (R70, R77 `HI n` and `LO n`). -/
def phase (level : Bool) (n : Nat) : List Bool := List.replicate n level

/-- One bit period (R70): a low phase of length `l1` for a 1 and `l0` for a 0, then a high phase of length `h`. -/
def bitPeriod (l0 l1 h : Nat) (b : Bool) : List Bool :=
  phase false (if b then l1 else l0) ++ phase true h

/-- The bit periods of the bits `from`, `from + 1`, ... of a word, `n` of them (R78). -/
def bitPeriods (w : Word) (l0 l1 h : Nat) : Nat → Nat → List Bool
  | _, 0 => []
  | from_, n + 1 => bitPeriod l0 l1 h (w.getLsbD from_) ++ bitPeriods w l0 l1 h (from_ + 1) n

/-- `FRAMEX w ll lh l0 l1 h s` (R78): the levels of the line while the word `w` is sent. -/
def frameX (w : Word) (ll lh l0 l1 h s : Nat) : List Bool :=
  phase false ll ++ phase true lh ++ bitPeriods w l0 l1 h 0 frameBits ++ phase false s

/-- `FRAME w` (R78): the reference waveform of 00_scope.md rule R8. -/
def frameRef (w : Word) : List Bool := frameX w 160 80 20 60 20 20

end Sys2Proof
end

