-- ==== Sys2Proof/Machine/Timer.lean ====
section
/-! DEFINITION. PulseTimer (40_pulse_timer.md): the level of each measuring state and the outcomes of a cycle in one:
continue (R91), timeout (R93), phase end (R92). -/

namespace Sys2Proof.Machine

/-- `L(st)` (R90): the level a measuring state measures; `none` outside the five measuring states. -/
def Seq.level : Seq → Option Bool
  | .leadLo => some false
  | .leadHi => some true
  | .bitLo => some false
  | .bitHi => some true
  | .stopLo => some false
  | .idle => none
  | .outSel => none
  | .outOpc => none
  | .outData => none
  | .outTens => none
  | .outOnes => none

/-- Whether `st` is a measuring state (R90). -/
def Seq.measuring (q : Seq) : Bool := q.level.isSome

/-- The phase continues in this cycle: `ir_in == L(st)` (R90). -/
def State.continues (s : State) : Bool := s.st.level == some s.input.irIn

/-- The phase continues: count the sample (R91), or abort when the count would reach the ceiling (R93). -/
def State.holdPhase (s : State) : State :=
  if s.pcnt + 1 < s.cfg.pulseCeil then { s with pcnt := s.pcnt + 1 } else s.abort

/-- One cycle of a measuring state; a phase end is tested before the ceiling (R206 item 2). -/
def State.measure (s : State) (phaseEnd : State) : State :=
  if s.continues then s.holdPhase else phaseEnd

end Sys2Proof.Machine
end

