-- ==== Sys2Proof/Machine/Decoder.lean ====
section
/-! DEFINITION. FrameDecoder (41_frame_decoder.md): the falling-edge test of `IDLE`, the threshold, and what each phase
end writes. The Done cycle is in Machine/Orchestrator.lean. -/

namespace Sys2Proof.Machine

/-- `thr(l) = ((l >> 2) + (l >> 3)) >> 1` (R104), the reading 90_conflicts.md C1 chooses. -/
def thr (l : Nat) : Nat := ((l >>> 2) + (l >>> 3)) >>> 1

/-- `IDLE` (R101): a falling edge starts a leader, and its sample is the leader's first. -/
def State.idleCycle (s : State) : State :=
  if s.irQ && !s.input.irIn then { s with st := .leadLo, pcnt := 1 } else s

/-- `LEAD_LO` phase end (R102): record the leader. -/
def State.leadLoEnd (s : State) : State := { s with lead := s.pcnt, pcnt := 1, st := .leadHi }

/-- `LEAD_HI` phase end (R103): begin the bits. -/
def State.leadHiEnd (s : State) : State := { s with pcnt := 1, nbits := 0, frame := 0, st := .bitLo }

/-- The classification of a bit from its low phase (R105): strictly longer than the threshold reads as 1. -/
def classify (lead m : Nat) : Bool := decide (thr lead < m)

/-- `(frame >> 1) + (b << 31)` (R105, R73): the new bit is the new high bit. -/
def shiftIn (frame : Word) (b : Bool) : Word := 
  (frame >>> 1) + ((BitVec.ofBool b).setWidth 32 <<< 31)

/-- `BIT_LO` phase end (R105): classify the bit and shift it in. -/
def State.bitLoEnd (s : State) : State :=
  { s with frame := shiftIn s.frame (classify s.lead s.pcnt), nbits := narrow 6 (s.nbits.toNat + 1),
           pcnt := 1, st := .bitHi }

/-- `BIT_HI` phase end (R106): the next bit, or the stop pulse after 32 bits. -/
def State.bitHiEnd (s : State) : State :=
  { s with pcnt := 1, st := if s.nbits.toNat = frameBits then .stopLo else .bitLo }

end Sys2Proof.Machine
end

