-- ==== Sys2Proof/Machine/Lookup.lean ====
section
/-! DEFINITION. AttenuatorMap and DisplayEncoder (45_lookup_tables.md): two pure lookups, without a value outside their
tables (R50, D25). -/

namespace Sys2Proof.Machine

/-- `attenuation_for(v)` (R165). -/
def attenuationFor (c : Config) (v : Nat) : Option Byte := memRead c .attenLut v

/-- `segments_for(d, t)` (R168): blank for a leading zero, else the digit's pattern. -/
def segmentsFor (c : Config) (d : Nat) (t : Bool) : Option Byte :=
  if t = true ∧ d = 0 then some c.segBlank else memRead c .segLut d

end Sys2Proof.Machine
end

