-- ==== Sys2Proof/Machine/Output.lean ====
section
/-! DEFINITION. The output sequence (46_orchestrator.md rules R176 to R180) and the output ports (10_state.md rule R42). -/

namespace Sys2Proof.Machine

/-- Use the value of a table read, or refuse where the table has none (R50). -/
def withLookup (r : Option Byte) (k : Byte → State) : Host.Outcome State Fault Refusal :=
  match r with
  | some b => .next (k b)
  | none => .refused .lookupOutOfRange

/-- `OUT_SEL` (R176): the select is low for one cycle before the first byte. -/
def State.outSelCycle (s : State) : State := { s with st := .outOpc }

/-- `OUT_OPC` (R177): the opcode byte is offered until it is acknowledged. -/
def State.outOpcCycle (s : State) : State :=
  if s.input.attAck then { s.memWrite .att s.cfg.wiperOpcode with st := .outData } else s

/-- `OUT_DATA` (R178): the data byte `b` is offered until it is acknowledged. -/
def State.outDataCycle (s : State) (b : Byte) : State :=
  if s.input.attAck then { s.memWrite .att b with st := .outTens } else s

/-- `OUT_TENS` (R179): the tens pattern `b` is written. -/
def State.outTensCycle (s : State) (b : Byte) : State := { s.memWrite .dispTens b with st := .outOnes }

/-- `OUT_ONES` (R180): the ones pattern `b` is written. -/
def State.outOnesCycle (s : State) (b : Byte) : State := { s.memWrite .dispOnes b with st := .idle }

/-- `att_sel_n` (R42). -/
def State.attSelN (s : State) : Bool :=
  match s.st with
  | .outSel => false
  | .outOpc => false
  | .outData => false
  | _ => true

/-- `att_valid` (R42). -/
def State.attValid (s : State) : Bool := s.st == .outOpc || s.st == .outData

/-- `att_byte` (R42). In `OUT_DATA` it is a table read and has no value outside the table; no reachable state is there
(assumption log entry 8). -/
def State.attByte (s : State) : Option Byte :=
  match s.st with
  | .outOpc => some s.cfg.wiperOpcode
  | .outData => attenuationFor s.cfg s.cur.toNat
  | _ => some 0

/-- `tens_we` (R42). -/
def State.tensWe (s : State) : Bool := s.st == .outTens

/-- `ones_we` (R42). -/
def State.onesWe (s : State) : Bool := s.st == .outOnes

/-- The output ports of a state (R42). -/
structure Ports where
  attSelN : Bool
  attValid : Bool
  attByte : Option Byte
  tensWe : Bool
  onesWe : Bool
  segTens : Byte
  segOnes : Byte
deriving DecidableEq, Repr

/-- All output ports as a function of the registers (R42). -/
def State.ports (s : State) : Ports :=
  { attSelN := s.attSelN, attValid := s.attValid, attByte := s.attByte, tensWe := s.tensWe, onesWe := s.onesWe,
    segTens := s.segTens, segOnes := s.segOnes }

end Sys2Proof.Machine
end

