-- ==== Sys2Proof/Machine/Orchestrator.lean ====
section
/-! DEFINITION. The Orchestrator (46_orchestrator.md): when a word is complete (the block's instruction fetch), what an
`UNREC` word does, every cycle that is not a Done cycle, and the silent fall-backs by name (60_exceptions.md rule
R201). -/

namespace Sys2Proof.Machine

/-- The word handed to the validator in this cycle: the frame, in the Done cycle only (R107). -/
def State.fetch (s : State) : Option Word :=
  if s.st = .stopLo ∧ s.input.irIn = true then some s.frame else none

/-- The Done cycle of an `UNREC` word (R122): back to `IDLE`, transient registers cleared, the gate not consulted. -/
def State.dropCycle (s : State) : State := s.endCycle false { s.clearTransient with st := .idle }

/-- Every cycle with `rst == 0` that is not a Done cycle (R91 to R93, R101 to R106, R176 to R180), with the rules of
every cycle added. -/
def State.sequencerCycle (s : State) : Host.Outcome State Fault Refusal :=
  match s.st with
  | .idle => .next (s.endCycle false s.idleCycle)
  | .leadLo => .next (s.endCycle false (s.measure s.leadLoEnd))
  | .leadHi => .next (s.endCycle false (s.measure s.leadHiEnd))
  | .bitLo => .next (s.endCycle false (s.measure s.bitLoEnd))
  | .bitHi => .next (s.endCycle false (s.measure s.bitHiEnd))
  | .stopLo => .next (s.endCycle false s.holdPhase)
  | .outSel => .next (s.endCycle false s.outSelCycle)
  | .outOpc => .next (s.endCycle false s.outOpcCycle)
  | .outData => withLookup (attenuationFor s.cfg s.cur.toNat) fun b => s.endCycle false (s.outDataCycle b)
  | .outTens => withLookup (segmentsFor s.cfg s.tens.toNat true) fun b => s.endCycle false (s.outTensCycle b)
  | .outOnes => withLookup (segmentsFor s.cfg s.ones.toNat false) fun b => s.endCycle false (s.outOnesCycle b)

/-- The silent fall-backs of R201. The block records none of them; the names are for reading a run. -/
inductive Cause where
  /-- `TIMEOUT_<st>` of the five measuring states. -/
  | timeout (q : Seq)
  /-- `BAD_ADDR0`, `BAD_ADDR1`, `BAD_CHECK`, `UNKNOWN_CMD`. -/
  | dropped (r : Reject)
  /-- `GATE_MIN_GAP`. -/
  | gateMinGap
  /-- `GATE_REPEAT_WAIT`. -/
  | gateRepeatWait
  /-- `SAT_HIGH`. -/
  | satHigh
  /-- `SAT_LOW`. -/
  | satLow
  /-- `MUTE_SILENT`. -/
  | muteSilent
  /-- `MISSED_FRAME`: an edge on the line while an output sequence runs (assumption log entry 15). -/
  | missedFrame
deriving DecidableEq, Repr

/-- The fall-back of an accepted command that changes nothing (R201 rows `SAT_HIGH`, `SAT_LOW`, `MUTE_SILENT`). -/
def State.noOpCause (s : State) : Instr → Option Cause
  | .volUp => if s.cur.toNat = volMax then some .satHigh else none
  | .volDown => if s.cur.toNat = 0 then some .satLow else none
  | .mute =>
    if s.cur.toNat = 0 ∧ s.savCur.toNat = 0 ∧ s.savTens.toNat = 0 ∧ s.savOnes.toNat = 0 then some .muteSilent
    else none

/-- The fall-back of a recognised command in its Done cycle (R201). -/
def State.commandCause (s : State) (i : Instr) : Option Cause :=
  if (s.gateAnswer i).accept then s.noOpCause i
  else if s.gap < s.cfg.tGap then some .gateMinGap
  else some .gateRepeatWait

/-- An edge of the line in this cycle: the sample differs from the previous cycle's, which `ir_q` holds (R24). Cycle 0
has none, since no sample precedes it and `ir_q` holds its reset value there (R41, D6; assumption log entry 15). -/
def State.lineEdge (s : State) : Bool := s.cycle != 0 && s.irQ != s.input.irIn

/-- The silent fall-back this cycle takes, if any (R201); none in a cycle with `rst == 1`, where no other rule applies
(R41). No step reads it. -/
def State.cause (s : State) : Option Cause :=
  if s.input.rst then none
  else match s.fetch with
  | some w =>
    match decode s.cfg w with
    | .ok i => s.commandCause i
    | .error r => some (.dropped r)
  | none =>
    match s.st.level with
    | some _ => if s.continues ∧ s.cfg.pulseCeil ≤ s.pcnt + 1 then some (.timeout s.st) else none
    | none => if s.st ≠ .idle ∧ s.lineEdge then some .missedFrame else none

end Sys2Proof.Machine
end

