-- ==== Sys2Proof/Machine/Step.lean ====
section
/-! DEFINITION. One clock cycle (00_scope.md rule R9; the order of 60_exceptions.md rule R206): an illegal configuration
is refused (R7), a reset overrides everything (R41), a Done cycle runs the decoded command or drops an `UNREC` word
(R107, R175), and any other cycle is the sequencer's. -/

namespace Sys2Proof.Machine

/-- One step of the machine: one rising edge of `clk`. -/
def step (s : State) : Host.Outcome State Fault Refusal :=
  if s.cfg.legal = true then
    if s.input.rst = true then .next s.resetCycle
    else
      match s.fetch with
      | some w =>
        match decode s.cfg w with
        | .ok i => exec i s
        | .error _ => .next s.dropCycle
      | none => s.sequencerCycle
  else .refused .illegalConfig

/-- The state in which the next step runs the instruction whose bits are `w`: the word stands complete in `frame`,
the stop pulse has lasted one cycle, the next sample is the high one that ends it (R107), and the inter-command
counter has passed the repeat threshold, so that the gate lets any command through (R131 to R133). Nothing else is
changed (assumption log entry 4). -/
def State.withFetchWord (s : State) (nbits w : Nat) : State :=
  { s with st := .stopLo, pcnt := 1, frame := BitVec.ofNat 32 (w % 2 ^ nbits), nbits := 32,
           gap := max s.gap s.cfg.tRepeat,
           inputs := ⟨false, true, false, false⟩ :: s.inputs }

end Sys2Proof.Machine
end

