-- ==== Sys2Proof/Machine/Stimulus.lean ====
section
/-! DEFINITION. The stimulus notation (30_encoding.md rules R77 and R78), the block's "assembler": statements, each
producing a number of input tuples. -/

namespace Sys2Proof.Machine

/-- The statements of R77 and the pseudo-statements of R78. -/
inductive Stmt where
  /-- `RESET`: one cycle with `rst = 1`; the cycle after it is cycle 0. -/
  | reset
  /-- `HI n`: `n` cycles of level 1. -/
  | hi (n : Nat)
  /-- `LO n`: `n` cycles of level 0. -/
  | lo (n : Nat)
  /-- `PHASES l1 h1 l2 h2 ...`: alternating phases, a low one first. -/
  | phases (ns : List Nat)
  /-- `GDIV g`: from now on a strobe exactly in the cycles `k` with `k mod g == g - 1`. -/
  | gdiv (g : Nat)
  /-- `ACK a`: from now on `att_ack = a` in every cycle. -/
  | ack (a : Bool)
  /-- `ACKAT k`: `att_ack = 1` only in cycle `k`; may be given several times. -/
  | ackAt (k : Nat)
  /-- `FRAMEX w ll lh l0 l1 h s`. -/
  | frameX (w : Word) (ll lh l0 l1 h s : Nat)
  /-- `FRAME w`; `VOLUP`, `VOLDOWN` and `MUTEKEY` are `FRAME` of the command's word. -/
  | frame (w : Word)
deriving DecidableEq, Repr

/-- What the acknowledge input does: a constant level, or 1 in the listed cycles only. -/
inductive AckMode where
  | always (a : Bool)
  | at (ks : List Nat)
deriving DecidableEq, Repr

/-- Where a stimulus stands: the number of the next cycle and the directives in force. -/
structure StimState where
  cycle : Nat
  gdiv : Nat
  ack : AckMode
deriving DecidableEq, Repr

/-- The start of a stimulus, with the default directives `GDIV 20` and `ACK 1` (R77). -/
def StimState.start : StimState := { cycle := 0, gdiv := 20, ack := .always true }

/-- The input tuple of the next cycle at a level of the line (R77). -/
def StimState.sample (e : StimState) (level : Bool) : Input :=
  { rst := false, irIn := level, gtick := e.cycle % e.gdiv + 1 == e.gdiv,
    attAck := match e.ack with
      | .always a => a
      | .at ks => ks.contains e.cycle }

/-- The input tuples of a list of levels, and where the stimulus then stands. -/
def StimState.samples (e : StimState) : List Bool → List Input × StimState
  | [] => ([], e)
  | b :: bs =>
    let (xs, e') := { e with cycle := e.cycle + 1 }.samples bs
    (e.sample b :: xs, e')

/-- The levels of alternating phases, starting with `level` (R77 `PHASES`). -/
def alternating (level : Bool) : List Nat → List Bool
  | [] => []
  | n :: ns => phase level n ++ alternating (!level) ns

/-- One statement: its input tuples, and where the stimulus then stands. -/
def StimState.run (e : StimState) : Stmt → List Input × StimState
  | .reset => ([⟨true, false, false, false⟩], { e with cycle := 0 })
  | .hi n => e.samples (phase true n)
  | .lo n => e.samples (phase false n)
  | .phases ns => e.samples (alternating false ns)
  | .gdiv g => ([], { e with gdiv := g })
  | .ack a => ([], { e with ack := .always a })
  | .ackAt k => ([], { e with ack := .at (match e.ack with | .always _ => [k] | .at ks => k :: ks) })
  | .frameX w ll lh l0 l1 h s => e.samples (Sys2Proof.frameX w ll lh l0 l1 h s)
  | .frame w => e.samples (frameRef w)

/-- The input tuples of a stimulus from where it stands. -/
def StimState.runAll (e : StimState) : List Stmt → List Input
  | [] => []
  | c :: cs => (e.run c).1 ++ (e.run c).2.runAll cs

/-- The input tuples of a stimulus. -/
def stimulus (cs : List Stmt) : List Input := StimState.start.runAll cs

end Sys2Proof.Machine
end

