-- ==== Sys2Proof/Safety.lean ====
section
/-! DEFINITION. The terms the statements are written in: the invariants of 10_state.md rules R34 to R36, which cycles
are ordinary, Done or accepting, and what a cycle leaves unchanged, register group by register group. Each is spelled
out from its rule and not through the operations of the model. -/

namespace Sys2Proof.Machine

/-- The volume invariant (R34): the digits are those of the volume, and all are in range. -/
abbrev VolumeInv (s : State) : Prop :=
  s.tens.toNat * 10 + s.ones.toNat = s.cur.toNat ∧ s.cur.toNat ≤ 99 ∧ s.tens.toNat ≤ 9 ∧ s.ones.toNat ≤ 9

/-- The same of the saved triple (R34). -/
abbrev SavedInv (s : State) : Prop :=
  s.savTens.toNat * 10 + s.savOnes.toNat = s.savCur.toNat ∧ s.savCur.toNat ≤ 99 ∧ s.savTens.toNat ≤ 9 ∧
    s.savOnes.toNat ≤ 9

/-- The gate invariants (R35). -/
abbrev GateInv (s : State) : Prop :=
  s.rcount.toNat ≤ 5 ∧ (s.last = none ↔ s.rcount = 0) ∧ s.gap ≤ s.cfg.gapCeil

/-- The five measuring states (R90). -/
abbrev Measuring (q : Seq) : Prop := q = .leadLo ∨ q = .leadHi ∨ q = .bitLo ∨ q = .bitHi ∨ q = .stopLo

/-- The transient registers of the decoder are zero (R109). -/
abbrev TransientCleared (t : State) : Prop := t.pcnt = 0 ∧ t.lead = 0 ∧ t.frame = 0 ∧ t.nbits = 0

/-- The decoder invariants (R36), with the ranges of `lead` and `nbits` state by state (R20, R26 to R28) and the
unfilled low bits of `frame` at zero (R27). -/
abbrev DecoderInv (s : State) : Prop :=
  s.pcnt ≤ s.cfg.pulseCeil - 1 ∧ s.lead ≤ s.cfg.pulseCeil - 1 ∧ (1 ≤ s.pcnt ↔ Measuring s.st) ∧
  s.nbits.toNat ≤ 32 ∧ (¬ Measuring s.st → TransientCleared s) ∧
  (s.st = .leadLo → s.lead = 0 ∧ s.frame = 0 ∧ s.nbits = 0) ∧ (s.st = .leadHi → s.frame = 0 ∧ s.nbits = 0) ∧
  (s.st = .bitLo → s.nbits.toNat ≤ 31) ∧ (s.st = .stopLo → s.nbits = 32) ∧
  s.frame.toNat % 2 ^ (32 - s.nbits.toNat) = 0

/-- The machine's invariant: a legal configuration (R7) and R34, R35, R36. -/
abbrev Inv (s : State) : Prop :=
  s.cfg.legal = true ∧ VolumeInv s ∧ SavedInv s ∧ GateInv s ∧ DecoderInv s

/-- An ordinary cycle: a legal configuration, and no reset. -/
abbrev Runs (s : State) : Prop := s.cfg.legal = true ∧ s.input.rst = false

/-- The Done cycle (R107): the stop pulse's low phase ends. -/
abbrev InDoneCycle (s : State) : Prop := s.st = .stopLo ∧ s.input.irIn = true

/-- The gate's condition for accepting a command (R131, R132, R133). -/
abbrev GateLetsThrough (s : State) (i : Instr) : Prop :=
  s.cfg.tGap ≤ s.gap ∧ (s.last ≠ some i ∨ s.cfg.tRepeat ≤ s.gap ∨ (s.rcount = 5 ∧ i ≠ .mute))

/-- This cycle accepts the command `i`: the internal signal `accept` is 1 (R175). -/
abbrev Accepts (s : State) (i : Instr) : Prop :=
  InDoneCycle s ∧ decode s.cfg s.frame = .ok i ∧ GateLetsThrough s i

/-- The configuration stays, and the environment moves on by one cycle (R6, R9). -/
abbrev EnvAdvances (s t : State) : Prop :=
  t.cfg = s.cfg ∧ t.inputs = s.inputs.tail ∧
  t.freeCount = (if s.inputs = [] then s.freeCount + 1 else s.freeCount) ∧ t.cycle = s.cycle + 1

/-- `ir_q` takes the line's level (R111). -/
abbrev LineSampled (s t : State) : Prop := t.irQ = s.input.irIn

/-- The condition of the idle clear in a cycle without an acceptance (R136). -/
abbrev IdleClearDue (s : State) : Prop :=
  (s.cfg.clearScope = .everyCycle ∨ s.st = .idle) ∧ s.rcount = 5 ∧ s.cfg.tIdle < s.gap

/-- `last` and `rcount` in a cycle without an acceptance: cleared when the idle clear is due, else kept (R136). -/
abbrev GateKeptOrCleared (s t : State) : Prop :=
  (IdleClearDue s → t.last = none ∧ t.rcount = 0) ∧ (¬ IdleClearDue s → t.last = s.last ∧ t.rcount = s.rcount)

/-- `gap` in a cycle without an acceptance (R137). -/
abbrev GapCounts (s t : State) : Prop :=
  t.gap = if s.input.gtick = true then min (s.gap + 1) s.cfg.gapCeil else s.gap

/-- Everything that happens in every cycle without an acceptance, whatever the sequencer does. -/
abbrev QuietBackground (s t : State) : Prop :=
  EnvAdvances s t ∧ LineSampled s t ∧ GateKeptOrCleared s t ∧ GapCounts s t

/-- The six volume registers are unchanged. -/
abbrev VolumeKept (s t : State) : Prop :=
  t.cur = s.cur ∧ t.tens = s.tens ∧ t.ones = s.ones ∧
  t.savCur = s.savCur ∧ t.savTens = s.savTens ∧ t.savOnes = s.savOnes

/-- The saved triple is unchanged. -/
abbrev SavedKept (s t : State) : Prop :=
  t.savCur = s.savCur ∧ t.savTens = s.savTens ∧ t.savOnes = s.savOnes

/-- The display registers are unchanged. -/
abbrev DisplayKept (s t : State) : Prop := t.segTens = s.segTens ∧ t.segOnes = s.segOnes

/-- No output event happens. -/
abbrev NoEvent (s t : State) : Prop := t.trace = s.trace

/-- The decoder's transient registers are unchanged. -/
abbrev TransientKept (s t : State) : Prop :=
  t.pcnt = s.pcnt ∧ t.lead = s.lead ∧ t.frame = s.frame ∧ t.nbits = s.nbits

/-- The frame of a Done cycle that turns a command away or drops a word: back to `IDLE`, the transient registers
cleared, no volume, display or output change, and the background of a cycle without an acceptance (R122, R135). -/
abbrev TurnedAway (s t : State) : Prop :=
  t.st = .idle ∧ TransientCleared t ∧ VolumeKept s t ∧ DisplayKept s t ∧ NoEvent s t ∧ QuietBackground s t

/-- What every accepted command does beside its volume rule (R175, R135, R137): the gate's registers by R132 or R133,
`gap` zeroed, the output sequence started, the transient registers cleared, displays and trace untouched. -/
abbrev AcceptedFrame (s t : State) (i : Instr) : Prop :=
  t.st = .outSel ∧ t.last = some i ∧
  t.rcount.toNat = (if s.last = some i then min (s.rcount.toNat + 1) 5 else 1) ∧
  t.gap = 0 ∧ TransientCleared t ∧ DisplayKept s t ∧ NoEvent s t ∧ EnvAdvances s t ∧ LineSampled s t

/-- A run has not stopped: the next step answers a next state. -/
def CanStep (s : State) : Prop := ∃ t, step s = .next t

end Sys2Proof.Machine
end

