-- ==== Sys2Proof/Certificates/Slice0/Obligations.lean ====
section
/-! DEFINITION. The statements for the provers. Each formalises rules of spec/, named in OBLIGATIONS.json. Where a
statement rests on a choice of the model, its docstring names the assumption log entry. -/

open Sys2Proof Sys2Proof.Machine

/-! ### The command word (R72 to R75, R120 to R123) -/

/-- The three words of the opcode table decode to their instructions under REFCFG, and the examples R121 gives of
other words do not decode. -/
def Obligations.TableWordsDecode : Prop :=
  decodeTableWord 32 0xF8070707 = some .volUp ∧
  decodeTableWord 32 0xF40B0707 = some .volDown ∧
  decodeTableWord 32 0xF00F0707 = some .mute ∧
  decodeTableWord 32 0xF9070707 = none ∧ decodeTableWord 32 0xF807F807 = none ∧
  decodeTableWord 32 0xFD020707 = none ∧ decodeTableWord 32 0 = none ∧ decodeTableWord 32 0xFFFFFFFF = none

/-- R121: what `validate` answers for every word of every configuration, its fields taken as numbers (R120), in the
order of the four tests. -/
def Obligations.ValidateFollowsItsTests : Prop :=
  ∀ (c : Config) (w : Word) (a0 a1 cmd chk : Nat),
    a0 = w.toNat % 256 → a1 = w.toNat / 256 % 256 → cmd = w.toNat / 65536 % 256 → chk = w.toNat / 16777216 →
    (decode c w = .error .badAddr0 ↔ a0 ≠ c.addr.toNat) ∧
    (decode c w = .error .badAddr1 ↔ a0 = c.addr.toNat ∧ a1 ≠ c.addr.toNat) ∧
    (decode c w = .error .badCheck ↔ a0 = c.addr.toNat ∧ a1 = c.addr.toNat ∧ chk ≠ 255 - cmd) ∧
    (a0 = c.addr.toNat → a1 = c.addr.toNat → chk = 255 - cmd →
      (cmd = c.cmdUp.toNat → decode c w = .ok .volUp) ∧
      (cmd ≠ c.cmdUp.toNat → cmd = c.cmdDown.toNat → decode c w = .ok .volDown) ∧
      (cmd ≠ c.cmdUp.toNat → cmd ≠ c.cmdDown.toNat → cmd = c.cmdMute.toNat → decode c w = .ok .mute) ∧
      (cmd ≠ c.cmdUp.toNat → cmd ≠ c.cmdDown.toNat → cmd ≠ c.cmdMute.toNat → decode c w = .error .unknownCmd))

/-- R74 and R75: under every configuration, a well-formed instruction has exactly one word, the symbolic word of R74,
and decoding that word, or its four bytes in their order of arrival, gives the instruction back. -/
def Obligations.DecodeEncodeAgree : Prop :=
  ∀ (c : Config) (i : Instr), i.wellFormed c = true →
    (encode c i).toNat =
      (255 - (i.code c).toNat) * 2 ^ 24 + (i.code c).toNat * 2 ^ 16 + c.addr.toNat * 2 ^ 8 + c.addr.toNat ∧
    decode c (encode c i) = .ok i ∧ decodeBytes c (encodeBytes c i) = .ok i ∧
    ∀ w, decode c w = .ok i → w = encode c i

/-! ### The frame on the line (R70, R72, R73, R78, R79) -/

/-- A word sent on the line is the word received: from `IDLE` with the line high, the 67 phases of any word, with
phase lengths under the ceiling and bit lengths on their sides of the leader's threshold, leave the block in the stop
pulse with exactly that word in `frame`, and nothing has been applied or output. -/
def Obligations.FrameOnTheLineIsReceived : Prop :=
  ∀ (s : State) (w : Word) (ll lh l0 l1 h sp : Nat) (xs rest : List Input),
    s.cfg.legal = true → s.st = .idle → s.irQ = true → TransientCleared s →
    s.inputs = xs ++ rest → xs.map Input.irIn = frameX w ll lh l0 l1 h sp → (∀ x ∈ xs, x.rst = false) →
    (1 ≤ ll ∧ ll < s.cfg.pulseCeil) → (1 ≤ lh ∧ lh < s.cfg.pulseCeil) → (1 ≤ l0 ∧ l0 < s.cfg.pulseCeil) →
    (1 ≤ l1 ∧ l1 < s.cfg.pulseCeil) → (1 ≤ h ∧ h < s.cfg.pulseCeil) → (1 ≤ sp ∧ sp < s.cfg.pulseCeil) →
    l0 ≤ (ll / 4 + ll / 8) / 2 → (ll / 4 + ll / 8) / 2 < l1 →
    ∃ t, Sys2Proof.core.run xs.length s = .next t ∧ t.st = .stopLo ∧ t.frame = w ∧ t.nbits = 32 ∧ t.lead = ll ∧
      t.pcnt = sp ∧ t.inputs = rest ∧ t.cfg = s.cfg ∧ VolumeKept s t ∧ DisplayKept s t ∧ NoEvent s t

/-- R79: how many cycles a frame lasts. -/
def Obligations.FrameLengthOnTheLine : Prop :=
  ∀ (w : Word) (ll lh l0 l1 h s n1 : Nat),
    n1 = ((List.range 32).filter fun k => w.getLsbD k).length →
    (frameX w ll lh l0 l1 h s).length = ll + lh + 32 * h + n1 * l1 + (32 - n1) * l0 + s

/-! ### Reset, the configuration, the invariant (R7, R34 to R36, R41, R200) -/

/-- R41: a cycle with `rst == 1` gives every register its reset value, whatever the state and the other inputs. -/
def Obligations.ResetLoadsEveryRegister : Prop :=
  ∀ s : State, s.cfg.legal = true → s.input.rst = true →
    ∃ t, step s = .next t ∧ t.st = .outSel ∧ t.irQ = false ∧ t.pcnt = 0 ∧ t.lead = 0 ∧ t.frame = 0 ∧ t.nbits = 0 ∧
      t.last = none ∧ t.rcount = 0 ∧ t.gap = 0 ∧ t.cur = 0 ∧ t.tens = 0 ∧ t.ones = 0 ∧
      t.savCur = 0 ∧ t.savTens = 0 ∧ t.savOnes = 0 ∧ t.segTens = s.cfg.segBlank ∧ t.segOnes = s.cfg.segBlank

/-- What a reset cycle does to the model's own fields and what the ports then show. The next cycle is cycle 0 (R220);
that the observer keeps its record and the stimulus goes on is the model's choice (assumption log entry 5). -/
def Obligations.ResetRestartsTheCycleCount : Prop :=
  ∀ s t : State, s.cfg.legal = true → s.input.rst = true → step s = .next t →
    t.cycle = 0 ∧ t.trace = s.trace ∧ t.inputs = s.inputs.tail ∧ t.cfg = s.cfg ∧
    t.ports = { attSelN := false, attValid := false, attByte := some 0, tensWe := false, onesWe := false,
                segTens := s.cfg.segBlank, segOnes := s.cfg.segBlank }

/-- The reset state of every legal configuration meets the invariant; the model's own reset state, built with REFCFG
(assumption log entry 1), is one of them. -/
def Obligations.ResetMeetsInvariant : Prop :=
  (∀ c : Config, c.legal = true → Inv (State.resetWith c)) ∧ Inv State.reset

/-- R34, R35 and R36 hold along every step, from every state in which they hold, reset cycles included. -/
def Obligations.StepKeepsInvariant : Prop :=
  ∀ s t : State, Inv s → step s = .next t → Inv t

/-- R200: no input sequence stops a block whose invariant holds. The refusals of the model are never reached. -/
def Obligations.InvariantStatesNeverStop : Prop :=
  ∀ s : State, Inv s → CanStep s

/-- No step and no instruction writes a parameter (R6, R40). -/
def Obligations.ConfigurationNeverWritten : Prop :=
  (∀ s t : State, step s = .next t → t.cfg = s.cfg) ∧
  (∀ (i : Instr) (s t : State), exec i s = .next t → t.cfg = s.cfg)

/-- Which configurations are legal and that any other is refused: the constraints K1 to K5 of R7, one by one (K6 is
physical), and the table lengths of R6 and R50, which R7 does not list (assumption log entry 20, DEDUCED). The refusal
comes in every state and under every input, a reset cycle included (entry 10, DEDUCED). -/
def Obligations.IllegalConfigurationRefused : Prop :=
  (∀ c : Config, c.legal = true ↔
    (2 ≤ c.pulseCeil ∧ c.pulseCeil ≤ 2 ^ c.pulseW) ∧
    (0 < c.tGap ∧ c.tGap < c.tIdle ∧ c.tIdle < c.tRepeat ∧ c.tRepeat ≤ c.gapCeil ∧ c.gapCeil < 2 ^ c.gapW) ∧
    (c.cmdUp ≠ c.cmdDown ∧ c.cmdUp ≠ c.cmdMute ∧ c.cmdDown ≠ c.cmdMute) ∧
    (c.attenLut.length = 100 ∧ c.attenLut[0]? = some 0 ∧ c.attenLut[99]? = some 255 ∧
      ∀ (i : Nat) (a b : Byte), i < 99 → c.attenLut[i]? = some a → c.attenLut[i + 1]? = some b → a.toNat ≤ b.toNat) ∧
    (c.segLut.length = 10 ∧ c.segLut[0]? ≠ some c.segBlank)) ∧
  (∀ s : State, s.cfg.legal = false → step s = .refused .illegalConfig)

/-! ### A step runs the decoded command (R107, R175) -/

/-- In an ordinary Done cycle whose frame decodes to `i`, a step is `exec i`. -/
def Obligations.StepRunsDecodedCommand : Prop :=
  ∀ (s : State) (i : Instr), Runs s → InDoneCycle s → decode s.cfg s.frame = .ok i → step s = exec i s

/-- R122: what an `UNREC` word does. -/
def Obligations.UnrecWordIsDropped : Prop :=
  ∀ (s : State) (r : Reject), Runs s → InDoneCycle s → decode s.cfg s.frame = .error r →
    ∃ t, step s = .next t ∧ TurnedAway s t

/-! ### The pulse timer and the frame decoder (R91 to R112) -/

/-- R91 in all five measuring states: the phase continues below the ceiling, and the counter advances. -/
def Obligations.ContinueCountsTheSample : Prop :=
  ∀ s : State, Runs s → Measuring s.st →
    s.input.irIn = (if s.st = .leadHi ∨ s.st = .bitHi then true else false) → s.pcnt + 1 < s.cfg.pulseCeil →
    ∃ t, step s = .next t ∧ t.st = s.st ∧ t.pcnt = s.pcnt + 1 ∧ t.lead = s.lead ∧ t.frame = s.frame ∧
      t.nbits = s.nbits ∧ VolumeKept s t ∧ DisplayKept s t ∧ NoEvent s t ∧ QuietBackground s t

/-- R93 and R202 in all five measuring states: at the ceiling the frame is given up, and nothing else changes. -/
def Obligations.TimeoutAborts : Prop :=
  ∀ s : State, Runs s → Measuring s.st →
    s.input.irIn = (if s.st = .leadHi ∨ s.st = .bitHi then true else false) → s.cfg.pulseCeil ≤ s.pcnt + 1 →
    ∃ t, step s = .next t ∧ t.st = .idle ∧ TransientCleared t ∧ VolumeKept s t ∧ DisplayKept s t ∧ NoEvent s t ∧
      QuietBackground s t

/-- R101: `IDLE` leaves on a falling edge only, and waits for ever otherwise. -/
def Obligations.FallingEdgeStartsLeader : Prop :=
  ∀ s : State, Runs s → s.st = .idle →
    ∃ t, step s = .next t ∧
      (if s.irQ = true ∧ s.input.irIn = false then t.st = .leadLo ∧ t.pcnt = 1 else t.st = .idle ∧ t.pcnt = s.pcnt) ∧
      t.lead = s.lead ∧ t.frame = s.frame ∧ t.nbits = s.nbits ∧
      VolumeKept s t ∧ DisplayKept s t ∧ NoEvent s t ∧ QuietBackground s t

/-- R102: the end of the leader's low phase records it. -/
def Obligations.LeaderLowIsRecorded : Prop :=
  ∀ s : State, Runs s → s.st = .leadLo → s.input.irIn = true →
    ∃ t, step s = .next t ∧ t.lead = s.pcnt ∧ t.pcnt = 1 ∧ t.st = .leadHi ∧ t.frame = s.frame ∧ t.nbits = s.nbits ∧
      VolumeKept s t ∧ DisplayKept s t ∧ NoEvent s t ∧ QuietBackground s t

/-- R103: the end of the leader's high phase begins the bits, its measurement discarded. -/
def Obligations.LeaderHighBeginsBits : Prop :=
  ∀ s : State, Runs s → s.st = .leadHi → s.input.irIn = false →
    ∃ t, step s = .next t ∧ t.pcnt = 1 ∧ t.nbits = 0 ∧ t.frame = 0 ∧ t.st = .bitLo ∧ t.lead = s.lead ∧
      VolumeKept s t ∧ DisplayKept s t ∧ NoEvent s t ∧ QuietBackground s t

/-- R104: the threshold in numbers, its bound, its monotony, and the values the rule lists. -/
def Obligations.ThresholdFormula : Prop :=
  (∀ l : Nat, thr l = (l / 4 + l / 8) / 2 ∧ l / 4 + l / 8 ≤ l) ∧
  (∀ l l' : Nat, l ≤ l' → thr l ≤ thr l') ∧
  (∀ l : Nat, l ≤ 7 → thr l = 0) ∧ thr 8 = 1 ∧ thr 16 = 3 ∧ thr 160 = 30 ∧ thr 161 = 30 ∧ thr 499 = 93

/-- R105: the end of a bit's low phase classifies the bit against the leader and shifts it in at the top. The premise
on `nbits` is part of the invariant (R36). -/
def Obligations.BitIsClassifiedAndShiftedIn : Prop :=
  ∀ s : State, Runs s → s.st = .bitLo → s.input.irIn = true → s.nbits.toNat ≤ 31 →
    ∃ t, step s = .next t ∧
      t.frame.toNat = s.frame.toNat / 2 + (if (s.lead / 4 + s.lead / 8) / 2 < s.pcnt then 2 ^ 31 else 0) ∧
      t.nbits.toNat = s.nbits.toNat + 1 ∧ t.pcnt = 1 ∧ t.st = .bitHi ∧ t.lead = s.lead ∧
      VolumeKept s t ∧ DisplayKept s t ∧ NoEvent s t ∧ QuietBackground s t

/-- R106: the end of a bit's high phase leads to the next bit, and after 32 bits to the stop pulse. -/
def Obligations.BitHighLeadsOn : Prop :=
  ∀ s : State, Runs s → s.st = .bitHi → s.input.irIn = false →
    ∃ t, step s = .next t ∧ t.pcnt = 1 ∧ t.st = (if s.nbits = 32 then .stopLo else .bitLo) ∧
      t.lead = s.lead ∧ t.frame = s.frame ∧ t.nbits = s.nbits ∧
      VolumeKept s t ∧ DisplayKept s t ∧ NoEvent s t ∧ QuietBackground s t

/-- R111: `ir_q` holds the previous sample after every cycle without a reset. -/
def Obligations.PreviousSampleIsKept : Prop :=
  ∀ s t : State, Runs s → step s = .next t → t.irQ = s.input.irIn

/-- R112: in the output states the line has no effect but on `ir_q`: two cycles that differ only in the sample of the
line give the same next state but for `ir_q`. -/
def Obligations.LineIgnoredDuringOutput : Prop :=
  ∀ (s t : State) (x y : Input) (rest : List Input),
    (s.st = .outSel ∨ s.st = .outOpc ∨ s.st = .outData ∨ s.st = .outTens ∨ s.st = .outOnes) →
    x.rst = false → y.rst = false → x.gtick = y.gtick → x.attAck = y.attAck →
    step { s with inputs := x :: rest } = .next t →
    step { s with inputs := y :: rest } = .next { t with irQ := y.irIn }

/-- R96: the two time bases are not conflated. A command's meaning reads no decoder register, and the value of `gap`
changes nothing of what the decoder does. -/
def Obligations.TimeBasesAreIndependent : Prop :=
  (∀ (i : Instr) (s : State) (p l : Nat) (f : Word) (n : BitVec 6),
    exec i { s with pcnt := p, lead := l, frame := f, nbits := n } = exec i s) ∧
  (∀ (s t : State) (g : Nat), Runs s → step s = .next t →
    ∃ u, step { s with gap := g } = .next u ∧ u.pcnt = t.pcnt ∧ u.lead = t.lead ∧ u.frame = t.frame ∧
      u.nbits = t.nbits ∧ u.irQ = t.irQ ∧ (¬ InDoneCycle s → u.st = t.st))

/-! ### The instructions (R150 to R154) and the gate (R131 to R137) -/

/-- R150: `VOL_UP` completes whenever the gate lets it through, and does this to the volume. -/
def Obligations.VolUpCompletes : Prop :=
  ∀ s : State, VolumeInv s → GateLetsThrough s .volUp →
    ∃ t, exec .volUp s = .next t ∧ AcceptedFrame s t .volUp ∧ SavedKept s t ∧
      (if s.cur = 99 then t.cur = s.cur ∧ t.tens = s.tens ∧ t.ones = s.ones
       else t.cur.toNat = s.cur.toNat + 1 ∧
         (if s.ones.toNat + 1 = 10 then t.ones = 0 ∧ t.tens.toNat = s.tens.toNat + 1
          else t.ones.toNat = s.ones.toNat + 1 ∧ t.tens = s.tens))

/-- R151: `VOL_DOWN` completes whenever the gate lets it through, and does this to the volume. -/
def Obligations.VolDownCompletes : Prop :=
  ∀ s : State, VolumeInv s → GateLetsThrough s .volDown →
    ∃ t, exec .volDown s = .next t ∧ AcceptedFrame s t .volDown ∧ SavedKept s t ∧
      (if s.cur = 0 then t.cur = s.cur ∧ t.tens = s.tens ∧ t.ones = s.ones
       else t.cur.toNat + 1 = s.cur.toNat ∧
         (if s.ones = 0 then t.ones = 9 ∧ t.tens.toNat + 1 = s.tens.toNat
          else t.ones.toNat + 1 = s.ones.toNat ∧ t.tens = s.tens))

/-- R152: `MUTE` completes whenever the gate lets it through, and moves the volume triple as the rule says. -/
def Obligations.MuteCompletes : Prop :=
  ∀ s : State, GateLetsThrough s .mute →
    ∃ t, exec .mute s = .next t ∧ AcceptedFrame s t .mute ∧
      (if s.cur = 0 then
        t.cur = s.savCur ∧ t.tens = s.savTens ∧ t.ones = s.savOnes ∧ t.savCur = 0 ∧ t.savTens = 0 ∧ t.savOnes = 0
       else
        t.savCur = s.cur ∧ t.savTens = s.tens ∧ t.savOnes = s.ones ∧ t.cur = 0 ∧ t.tens = 0 ∧ t.ones = 0)

/-- R131: below the minimum gap every command is turned away, the same as `last` or different. -/
def Obligations.MinimumGapRejects : Prop :=
  ∀ (i : Instr) (s : State), s.gap < s.cfg.tGap → ∃ t, exec i s = .next t ∧ TurnedAway s t

/-- R132: the same command again is accepted after the repeat threshold or on the fast path, which `MUTE` never has,
and is turned away otherwise. -/
def Obligations.SameCommandAgain : Prop :=
  ∀ (i : Instr) (s : State), s.cfg.tGap ≤ s.gap → s.last = some i →
    ((s.cfg.tRepeat ≤ s.gap ∨ (s.rcount = 5 ∧ i ≠ .mute)) →
      ∃ t, exec i s = .next t ∧ t.st = .outSel ∧ t.last = s.last ∧
        t.rcount.toNat = min (s.rcount.toNat + 1) 5 ∧ t.gap = 0) ∧
    (¬ (s.cfg.tRepeat ≤ s.gap ∨ (s.rcount = 5 ∧ i ≠ .mute)) → ∃ t, exec i s = .next t ∧ TurnedAway s t)

/-- R133: a different command, `NONE` included, is accepted once the minimum gap has passed. -/
def Obligations.DifferentCommandAccepted : Prop :=
  ∀ (i : Instr) (s : State), s.cfg.tGap ≤ s.gap → s.last ≠ some i →
    ∃ t, exec i s = .next t ∧ t.st = .outSel ∧ t.last = some i ∧ t.rcount = 1 ∧ t.gap = 0

/-- The mute round trip: two accepted `MUTE`s with no volume change between them restore the starting volume and its
digits, for every starting state that meets the volume invariant (R34). -/
def Obligations.MuteRoundTrip : Prop :=
  ∀ s t u v : State, VolumeInv s → GateLetsThrough s .mute → exec .mute s = .next t →
    VolumeKept t u → GateLetsThrough u .mute → exec .mute u = .next v →
    v.cur = s.cur ∧ v.tens = s.tens ∧ v.ones = s.ones

/-- R154: `VOL_UP` while muted leaves the saved triple, the next `MUTE` overwrites it, and after any `MUTE` at most
one of `cur` and `sav_cur` is nonzero. -/
def Obligations.VolUpWhileMutedThenMute : Prop :=
  (∀ s t u v : State, VolumeInv s → s.cur = 0 → GateLetsThrough s .volUp → exec .volUp s = .next t →
    VolumeKept t u → GateLetsThrough u .mute → exec .mute u = .next v →
    (t.cur = 1 ∧ t.tens = 0 ∧ t.ones = 1 ∧ SavedKept s t) ∧
    (v.cur = 0 ∧ v.tens = 0 ∧ v.ones = 0 ∧ v.savCur = 1 ∧ v.savTens = 0 ∧ v.savOnes = 1)) ∧
  (∀ s t : State, GateLetsThrough s .mute → exec .mute s = .next t → t.cur = 0 ∨ t.savCur = 0)

/-- R137: `gap` after every cycle without a reset: zero on an acceptance, else counted up to the ceiling by strobes. -/
def Obligations.GapAfterEveryCycle : Prop :=
  ∀ s t : State, Runs s → step s = .next t →
    ((∃ i, Accepts s i) → t.gap = 0) ∧
    ((¬ ∃ i, Accepts s i) → t.gap = if s.input.gtick = true then min (s.gap + 1) s.cfg.gapCeil else s.gap)

/-- R136: the idle clear, in every cycle without a reset and without an acceptance: when its condition holds `last`
and `rcount` are cleared, and when it does not they keep their values. -/
def Obligations.IdleClearAfterEveryCycle : Prop :=
  ∀ s t : State, Runs s → step s = .next t → (¬ ∃ i, Accepts s i) →
    (((s.cfg.clearScope = .everyCycle ∨ s.st = .idle) ∧ s.rcount = 5 ∧ s.cfg.tIdle < s.gap) →
      t.last = none ∧ t.rcount = 0) ∧
    (¬ ((s.cfg.clearScope = .everyCycle ∨ s.st = .idle) ∧ s.rcount = 5 ∧ s.cfg.tIdle < s.gap) →
      t.last = s.last ∧ t.rcount = s.rcount)

/-- The six volume registers are written only in a Done cycle in which a command is accepted (R32). -/
def Obligations.VolumeWrittenOnlyWhenAccepted : Prop :=
  ∀ s t : State, Runs s → step s = .next t → (¬ ∃ i, Accepts s i) → VolumeKept s t

/-- The display registers are written only in `OUT_TENS` and `OUT_ONES`, each in its own state (R33). -/
def Obligations.DisplaysWrittenOnlyInTheirStates : Prop :=
  ∀ s t : State, Runs s → step s = .next t →
    (s.st ≠ .outTens → t.segTens = s.segTens) ∧ (s.st ≠ .outOnes → t.segOnes = s.segOnes)

/-! ### The output side (R42, R50, R52, R165 to R182) -/

/-- R42: the output ports in every state. -/
def Obligations.PortsFollowTheState : Prop :=
  ∀ s : State,
    (s.attSelN = false ↔ s.st = .outSel ∨ s.st = .outOpc ∨ s.st = .outData) ∧
    (s.attValid = true ↔ s.st = .outOpc ∨ s.st = .outData) ∧
    (s.st = .outOpc → s.attByte = some s.cfg.wiperOpcode) ∧
    (s.st = .outData → s.attByte = s.cfg.attenLut[s.cur.toNat]?) ∧
    (s.st ≠ .outOpc → s.st ≠ .outData → s.attByte = some 0) ∧
    (s.tensWe = true ↔ s.st = .outTens) ∧ (s.onesWe = true ↔ s.st = .outOnes) ∧
    s.ports.segTens = s.segTens ∧ s.ports.segOnes = s.segOnes

/-- R52: the output events of every cycle without a reset, read off the ports: a byte goes to the attenuator exactly
when it is offered and acknowledged, and each display is written in its one state. -/
def Obligations.EventsAreTheHandshakes : Prop :=
  ∀ s t : State, Runs s → step s = .next t →
    (s.attValid = true → s.input.attAck = true →
      ∃ v, s.attByte = some v ∧ t.trace = s.trace ++ [(s.cycle, .attByte v)]) ∧
    (s.tensWe = true → ∃ v, segmentsFor s.cfg s.tens.toNat true = some v ∧
      t.trace = s.trace ++ [(s.cycle, .dispTens v)]) ∧
    (s.onesWe = true → ∃ v, segmentsFor s.cfg s.ones.toNat false = some v ∧
      t.trace = s.trace ++ [(s.cycle, .dispOnes v)]) ∧
    (¬ (s.attValid = true ∧ s.input.attAck = true) → s.tensWe = false → s.onesWe = false → t.trace = s.trace)

/-- R165 and R166: the attenuation of every volume of a legal configuration: a value exactly for 0 to 99, 0 at 0,
255 at 99, non-decreasing. -/
def Obligations.AttenuationIsATaper : Prop :=
  ∀ c : Config, c.legal = true →
    attenuationFor c 0 = some 0 ∧ attenuationFor c 99 = some 255 ∧
    (∀ v, v ≤ 99 → ∃ b, attenuationFor c v = some b ∧ c.attenLut[v]? = some b) ∧
    (∀ v, 99 < v → attenuationFor c v = none) ∧
    (∀ (v v' : Nat) (b b' : Byte), v ≤ v' → attenuationFor c v = some b → attenuationFor c v' = some b' →
      b.toNat ≤ b'.toNat)

/-- R168: the pattern of every digit in both places: blank only for a leading zero, no value above 9. -/
def Obligations.SegmentsOfEveryDigit : Prop :=
  ∀ c : Config, c.legal = true →
    segmentsFor c 0 true = some c.segBlank ∧
    (∃ z, segmentsFor c 0 false = some z ∧ c.segLut[0]? = some z ∧ z ≠ c.segBlank) ∧
    (∀ d, 1 ≤ d → d ≤ 9 → ∃ b, c.segLut[d]? = some b ∧ segmentsFor c d true = some b ∧ segmentsFor c d false = some b) ∧
    (∀ d, 9 < d → segmentsFor c d true = none ∧ segmentsFor c d false = none)

/-- R50: a lookup outside its table has no value, and the cycle that needs it is refused. That `OUT_DATA` is refused also
in a cycle without an acknowledge is the model's choice (assumption log entry 8, DESIGN CHOICE). No state that meets the
invariant is one of these. -/
def Obligations.LookupOutsideTableRefused : Prop :=
  ∀ s : State, Runs s →
    ((s.st = .outData ∧ 99 < s.cur.toNat) ∨ (s.st = .outTens ∧ 9 < s.tens.toNat) ∨
      (s.st = .outOnes ∧ 9 < s.ones.toNat)) →
    step s = .refused .lookupOutOfRange

/-- R176: `OUT_SEL` lasts one cycle, in which the select is low and no byte is offered. -/
def Obligations.OutSelLastsOneCycle : Prop :=
  ∀ s : State, Runs s → s.st = .outSel → s.attSelN = false ∧ s.attValid = false ∧
    ∃ t, step s = .next t ∧ t.st = .outOpc ∧ TransientKept s t ∧ VolumeKept s t ∧ DisplayKept s t ∧ NoEvent s t ∧
      QuietBackground s t

/-- R177: `OUT_OPC` hands over the opcode byte when it is acknowledged, and waits as long as it is not. -/
def Obligations.OutOpcWaitsForAck : Prop :=
  ∀ s : State, Runs s → s.st = .outOpc →
    s.attSelN = false ∧ s.attValid = true ∧ s.attByte = some s.cfg.wiperOpcode ∧
    ∃ t, step s = .next t ∧ TransientKept s t ∧ VolumeKept s t ∧ DisplayKept s t ∧ QuietBackground s t ∧
      (if s.input.attAck = true then
        t.st = .outData ∧ t.trace = s.trace ++ [(s.cycle, .attByte s.cfg.wiperOpcode)]
       else t.st = .outOpc ∧ NoEvent s t)

/-- R178: `OUT_DATA` hands over the attenuation of the volume when it is acknowledged, and waits as long as it is
not. -/
def Obligations.OutDataWaitsForAck : Prop :=
  ∀ (s : State) (b : Byte), Runs s → s.st = .outData → s.cfg.attenLut[s.cur.toNat]? = some b →
    s.attSelN = false ∧ s.attValid = true ∧ s.attByte = some b ∧
    ∃ t, step s = .next t ∧ TransientKept s t ∧ VolumeKept s t ∧ DisplayKept s t ∧ QuietBackground s t ∧
      (if s.input.attAck = true then t.st = .outTens ∧ t.trace = s.trace ++ [(s.cycle, .attByte b)]
       else t.st = .outData ∧ NoEvent s t)

/-- R179: `OUT_TENS` writes the tens pattern, blank for a zero. -/
def Obligations.OutTensWritesThePattern : Prop :=
  ∀ (s : State) (b : Byte), Runs s → s.st = .outTens →
    (if s.tens = 0 then b = s.cfg.segBlank else s.cfg.segLut[s.tens.toNat]? = some b) →
    s.tensWe = true ∧
    ∃ t, step s = .next t ∧ t.st = .outOnes ∧ t.segTens = b ∧ t.segOnes = s.segOnes ∧
      t.trace = s.trace ++ [(s.cycle, .dispTens b)] ∧ TransientKept s t ∧ VolumeKept s t ∧ QuietBackground s t

/-- R180: `OUT_ONES` writes the ones pattern, zero included, and returns to `IDLE`. -/
def Obligations.OutOnesWritesThePattern : Prop :=
  ∀ (s : State) (b : Byte), Runs s → s.st = .outOnes → s.cfg.segLut[s.ones.toNat]? = some b →
    s.onesWe = true ∧
    ∃ t, step s = .next t ∧ t.st = .idle ∧ t.segOnes = b ∧ t.segTens = s.segTens ∧
      t.trace = s.trace ++ [(s.cycle, .dispOnes b)] ∧ TransientKept s t ∧ VolumeKept s t ∧ QuietBackground s t

/-- R182 and R60: the whole output sequence, with any delay of either acknowledge: four events in the fixed order, in
the cycles the delays give, carrying the volume of the start of the sequence. The five samples are those of
`OUT_SEL`, the acknowledging one of each byte, `OUT_TENS` and `OUT_ONES`; `d1` and `d2` are the delays. -/
def Obligations.OutputSequenceRuns : Prop :=
  ∀ (s : State) (x0 x1 x2 x3 x4 : Input) (d1 d2 rest : List Input),
    s.cfg.legal = true → VolumeInv s → s.st = .outSel →
    s.inputs = x0 :: (d1 ++ x1 :: (d2 ++ x2 :: x3 :: x4 :: rest)) →
    (∀ x ∈ d1 ++ d2, x.rst = false ∧ x.attAck = false) →
    (∀ x ∈ [x0, x1, x2, x3, x4], x.rst = false) → x1.attAck = true → x2.attAck = true →
    ∃ t a bt bo, Sys2Proof.core.run (5 + d1.length + d2.length) s = .next t ∧
      attenuationFor s.cfg s.cur.toNat = some a ∧ segmentsFor s.cfg s.tens.toNat true = some bt ∧
      segmentsFor s.cfg s.ones.toNat false = some bo ∧
      t.st = .idle ∧ t.inputs = rest ∧ t.segTens = bt ∧ t.segOnes = bo ∧ VolumeKept s t ∧ TransientKept s t ∧
      t.cycle = s.cycle + 5 + d1.length + d2.length ∧
      t.trace = s.trace ++
        [(s.cycle + 1 + d1.length, .attByte s.cfg.wiperOpcode), (s.cycle + 2 + d1.length + d2.length, .attByte a),
         (s.cycle + 3 + d1.length + d2.length, .dispTens bt), (s.cycle + 4 + d1.length + d2.length, .dispOnes bo)]

/-- R221: the start-up sequence of every legal configuration: five acknowledged cycles after reset the outputs have
been driven once with volume 0 and the block is in `IDLE`. -/
def Obligations.StartUpDrivesVolumeZero : Prop :=
  ∀ (c : Config) (xs rest : List Input) (z : Byte), c.legal = true → xs.length = 5 →
    (∀ x ∈ xs, x.rst = false ∧ x.attAck = true) → c.segLut[0]? = some z →
    ∃ t, Sys2Proof.core.run 5 { State.resetWith c with inputs := xs ++ rest } = .next t ∧ t.st = .idle ∧
      t.trace = [(1, .attByte c.wiperOpcode), (2, .attByte 0), (3, .dispTens c.segBlank), (4, .dispOnes z)] ∧
      t.segTens = c.segBlank ∧ t.segOnes = z ∧ t.cur = 0 ∧ t.cycle = 5

/-! ### Whole-machine rules (R23, R201) -/

/-- The table of R23, which the spec derives from R41, R91, R101 to R108 and R175 to R180: every transition of `st`, row
by row. -/
def Obligations.StateTransitionTable : Prop :=
  ∀ s t : State, step s = .next t →
    (s.input.rst = true → t.st = .outSel) ∧
    (s.input.rst = false →
      (s.st = .idle → t.st = if s.irQ = true ∧ s.input.irIn = false then .leadLo else .idle) ∧
      (s.st = .leadLo → s.input.irIn = true → t.st = .leadHi) ∧
      (s.st = .leadHi → s.input.irIn = false → t.st = .bitLo) ∧
      (s.st = .bitLo → s.input.irIn = true → t.st = .bitHi) ∧
      (s.st = .bitHi → s.input.irIn = false → t.st = if s.nbits = 32 then .stopLo else .bitLo) ∧
      (s.st = .stopLo → s.input.irIn = true → (∃ i, Accepts s i) → t.st = .outSel) ∧
      (s.st = .stopLo → s.input.irIn = true → (¬ ∃ i, Accepts s i) → t.st = .idle) ∧
      (Measuring s.st → s.input.irIn = (if s.st = .leadHi ∨ s.st = .bitHi then true else false) →
        t.st = if s.cfg.pulseCeil ≤ s.pcnt + 1 then .idle else s.st) ∧
      (s.st = .outSel → t.st = .outOpc) ∧
      (s.st = .outOpc → t.st = if s.input.attAck = true then .outData else .outOpc) ∧
      (s.st = .outData → t.st = if s.input.attAck = true then .outTens else .outData) ∧
      (s.st = .outTens → t.st = .outOnes) ∧ (s.st = .outOnes → t.st = .idle))

/-- R201: every silent fall-back leaves the six volume registers as they were; the transient registers are zero after
it, or, after `MISSED_FRAME`, as they were. Which cycle has which cause is `State.cause`, a function no step reads: that
each edge of the line is one `MISSED_FRAME`, and that a cycle has at most one cause, is the model's choice (assumption log
entry 15). `FallBackDestinations` says when each cause is named and where it leads. -/
def Obligations.FallBacksKeepTheVolume : Prop :=
  ∀ (s t : State) (k : Cause), Runs s → VolumeInv s → s.cause = some k → step s = .next t →
    VolumeKept s t ∧ TransientCleared t ∨ k = .missedFrame ∧ VolumeKept s t ∧ TransientKept s t

/-- R201 row by row: each cause is named in exactly the cycles that meet its row's condition, and then has its row's
effect. The timeouts, the dropped words and the rejections end in `IDLE` with the transient registers cleared and no
output event; the accepted commands that change nothing keep the volume and start the output sequence (R181; what it
writes is `OutputSequenceRuns`); the edges missed during an output sequence start no frame. A reset cycle has no cause.
The clause of `MUTE_SILENT` that the volume stays rests on R34, its premise. That each edge of the line is one
`MISSED_FRAME`, cycle 0 having no edge, and that a cycle has at most one cause, is the model's choice (assumption log
entry 15). -/
def Obligations.FallBackDestinations : Prop :=
  (∀ s : State, s.input.rst = true → s.cause = none) ∧
  (∀ s t : State, Runs s → step s = .next t →
    -- TIMEOUT_LEAD_LO, TIMEOUT_LEAD_HI, TIMEOUT_BIT_LO, TIMEOUT_BIT_HI, TIMEOUT_STOP_LO
    (s.cause = some (.timeout .leadLo) ↔ s.st = .leadLo ∧ s.input.irIn = false ∧ s.cfg.pulseCeil ≤ s.pcnt + 1) ∧
    (s.cause = some (.timeout .leadHi) ↔ s.st = .leadHi ∧ s.input.irIn = true ∧ s.cfg.pulseCeil ≤ s.pcnt + 1) ∧
    (s.cause = some (.timeout .bitLo) ↔ s.st = .bitLo ∧ s.input.irIn = false ∧ s.cfg.pulseCeil ≤ s.pcnt + 1) ∧
    (s.cause = some (.timeout .bitHi) ↔ s.st = .bitHi ∧ s.input.irIn = true ∧ s.cfg.pulseCeil ≤ s.pcnt + 1) ∧
    (s.cause = some (.timeout .stopLo) ↔ s.st = .stopLo ∧ s.input.irIn = false ∧ s.cfg.pulseCeil ≤ s.pcnt + 1) ∧
    (∀ q, s.cause = some (.timeout q) → Measuring q ∧ TurnedAway s t) ∧
    -- BAD_ADDR0, BAD_ADDR1, BAD_CHECK, UNKNOWN_CMD
    (s.cause = some (.dropped .badAddr0) ↔ InDoneCycle s ∧ s.frame.toNat % 256 ≠ s.cfg.addr.toNat) ∧
    (s.cause = some (.dropped .badAddr1) ↔ InDoneCycle s ∧ s.frame.toNat % 256 = s.cfg.addr.toNat ∧
      s.frame.toNat / 256 % 256 ≠ s.cfg.addr.toNat) ∧
    (s.cause = some (.dropped .badCheck) ↔ InDoneCycle s ∧ s.frame.toNat % 256 = s.cfg.addr.toNat ∧
      s.frame.toNat / 256 % 256 = s.cfg.addr.toNat ∧
      s.frame.toNat / 16777216 ≠ 255 - s.frame.toNat / 65536 % 256) ∧
    (s.cause = some (.dropped .unknownCmd) ↔ InDoneCycle s ∧ s.frame.toNat % 256 = s.cfg.addr.toNat ∧
      s.frame.toNat / 256 % 256 = s.cfg.addr.toNat ∧
      s.frame.toNat / 16777216 = 255 - s.frame.toNat / 65536 % 256 ∧
      s.frame.toNat / 65536 % 256 ≠ s.cfg.cmdUp.toNat ∧ s.frame.toNat / 65536 % 256 ≠ s.cfg.cmdDown.toNat ∧
      s.frame.toNat / 65536 % 256 ≠ s.cfg.cmdMute.toNat) ∧
    (∀ r, s.cause = some (.dropped r) → r ≠ .notAFrame ∧ TurnedAway s t) ∧
    -- GATE_MIN_GAP, GATE_REPEAT_WAIT
    (s.cause = some .gateMinGap ↔ InDoneCycle s ∧ (∃ i, decode s.cfg s.frame = .ok i) ∧ s.gap < s.cfg.tGap) ∧
    (s.cause = some .gateRepeatWait ↔ InDoneCycle s ∧ ∃ i, decode s.cfg s.frame = .ok i ∧ s.last = some i ∧
      s.cfg.tGap ≤ s.gap ∧ s.gap < s.cfg.tRepeat ∧ ¬ (s.rcount = 5 ∧ i ≠ .mute)) ∧
    (s.cause = some .gateMinGap ∨ s.cause = some .gateRepeatWait → TurnedAway s t) ∧
    -- SAT_HIGH, SAT_LOW, MUTE_SILENT
    (s.cause = some .satHigh ↔ Accepts s .volUp ∧ s.cur = 99) ∧
    (s.cause = some .satLow ↔ Accepts s .volDown ∧ s.cur = 0) ∧
    (s.cause = some .muteSilent ↔ Accepts s .mute ∧ s.cur = 0 ∧ s.savCur = 0 ∧ s.savTens = 0 ∧ s.savOnes = 0) ∧
    (s.cause = some .satHigh → VolumeKept s t ∧ AcceptedFrame s t .volUp) ∧
    (s.cause = some .satLow → VolumeKept s t ∧ AcceptedFrame s t .volDown) ∧
    (s.cause = some .muteSilent → (VolumeInv s → VolumeKept s t) ∧ AcceptedFrame s t .mute) ∧
    -- MISSED_FRAME
    (s.cause = some .missedFrame ↔
      (s.st = .outSel ∨ s.st = .outOpc ∨ s.st = .outData ∨ s.st = .outTens ∨ s.st = .outOnes) ∧
      s.cycle ≠ 0 ∧ s.irQ ≠ s.input.irIn) ∧
    (s.cause = some .missedFrame →
      ¬ Measuring t.st ∧ TransientKept s t ∧ VolumeKept s t ∧ QuietBackground s t))
end

