-- ==== Sys2Proof/Laws/Decode.lean ====
section
/-! SUPPORT. The byte fields of a word and the word of four bytes, as numbers and as inverses of each other; what a
decoded word's fields are. -/

namespace Sys2Proof

theorem addr0_toNat (w : Word) : (addr0 w).toNat = w.toNat % 256 := by simp [addr0]

theorem addr1_toNat (w : Word) : (addr1 w).toNat = w.toNat / 256 % 256 := by
  simp [addr1, Nat.shiftRight_eq_div_pow]

theorem cmdByte_toNat (w : Word) : (cmdByte w).toNat = w.toNat / 65536 % 256 := by
  simp [cmdByte, Nat.shiftRight_eq_div_pow]

theorem chkByte_toNat (w : Word) : (chkByte w).toNat = w.toNat / 16777216 := by
  have := w.isLt
  simp [chkByte, Nat.shiftRight_eq_div_pow]; omega

theorem wordOfBytes_toNat (b0 b1 b2 b3 : Byte) :
    (wordOfBytes b0 b1 b2 b3).toNat = b3.toNat * 2 ^ 24 + b2.toNat * 2 ^ 16 + b1.toNat * 2 ^ 8 + b0.toNat := by
  have h0 := b0.isLt
  have h1 := b1.isLt
  have h2 := b2.isLt
  unfold wordOfBytes
  rw [BitVec.toNat_append, BitVec.toNat_append, BitVec.toNat_append,
    ← Nat.shiftLeft_add_eq_or_of_lt h0, ← Nat.shiftLeft_add_eq_or_of_lt h1, ← Nat.shiftLeft_add_eq_or_of_lt h2]
  simp only [Nat.shiftLeft_eq]; omega

/-- Taking the fields of an assembled word gives the bytes back. -/
theorem fields_wordOfBytes (b0 b1 b2 b3 : Byte) :
    addr0 (wordOfBytes b0 b1 b2 b3) = b0 ∧ addr1 (wordOfBytes b0 b1 b2 b3) = b1 ∧
      cmdByte (wordOfBytes b0 b1 b2 b3) = b2 ∧ chkByte (wordOfBytes b0 b1 b2 b3) = b3 := by
  have h0 := b0.isLt
  have h1 := b1.isLt
  have h2 := b2.isLt
  have h3 := b3.isLt
  refine ⟨?_, ?_, ?_, ?_⟩ <;> apply BitVec.eq_of_toNat_eq <;>
    simp only [addr0_toNat, addr1_toNat, cmdByte_toNat, chkByte_toNat, wordOfBytes_toNat] <;> omega

/-- Assembling a word's own fields gives the word back. -/
theorem wordOfBytes_fields (w : Word) : wordOfBytes (addr0 w) (addr1 w) (cmdByte w) (chkByte w) = w := by
  have := w.isLt
  apply BitVec.eq_of_toNat_eq
  simp only [addr0_toNat, addr1_toNat, cmdByte_toNat, chkByte_toNat, wordOfBytes_toNat]; omega

/-- What the fields of a word that decodes to `i` are (R121). -/
theorem decode_ok_fields {c : Config} {w : Word} {i : Instr} (h : decode c w = .ok i) :
    addr0 w = c.addr ∧ addr1 w = c.addr ∧ cmdByte w = i.code c ∧ chkByte w = ~~~(i.code c) := by
  unfold decode at h
  split_ifs at h with h1 h2 h3 h4 h5 h6
  all_goals cases h
  all_goals simp_all [Instr.code]

end Sys2Proof
end

