-- ==== Sys2Proof/Laws/State.lean ====
section
/-! SUPPORT. What each update of the state does to each field: one lemma per field per update, true by unfolding, so
that no later proof unfolds a record update. -/

namespace Sys2Proof.Machine

variable (s t : State) (v : Volume) (e : OutEvent) (b : Byte) (f a : Bool)
@[simp] theorem State.setVolume_cfg : (s.setVolume v).cfg = s.cfg := rfl
@[simp] theorem State.setVolume_st : (s.setVolume v).st = s.st := rfl
@[simp] theorem State.setVolume_irQ : (s.setVolume v).irQ = s.irQ := rfl
@[simp] theorem State.setVolume_pcnt : (s.setVolume v).pcnt = s.pcnt := rfl
@[simp] theorem State.setVolume_lead : (s.setVolume v).lead = s.lead := rfl
@[simp] theorem State.setVolume_frame : (s.setVolume v).frame = s.frame := rfl
@[simp] theorem State.setVolume_nbits : (s.setVolume v).nbits = s.nbits := rfl
@[simp] theorem State.setVolume_last : (s.setVolume v).last = s.last := rfl
@[simp] theorem State.setVolume_rcount : (s.setVolume v).rcount = s.rcount := rfl
@[simp] theorem State.setVolume_gap : (s.setVolume v).gap = s.gap := rfl
@[simp] theorem State.setVolume_cur : (s.setVolume v).cur = v.cur := rfl
@[simp] theorem State.setVolume_tens : (s.setVolume v).tens = v.tens := rfl
@[simp] theorem State.setVolume_ones : (s.setVolume v).ones = v.ones := rfl
@[simp] theorem State.setVolume_savCur : (s.setVolume v).savCur = v.savCur := rfl
@[simp] theorem State.setVolume_savTens : (s.setVolume v).savTens = v.savTens := rfl
@[simp] theorem State.setVolume_savOnes : (s.setVolume v).savOnes = v.savOnes := rfl
@[simp] theorem State.setVolume_segTens : (s.setVolume v).segTens = s.segTens := rfl
@[simp] theorem State.setVolume_segOnes : (s.setVolume v).segOnes = s.segOnes := rfl
@[simp] theorem State.setVolume_inputs : (s.setVolume v).inputs = s.inputs := rfl
@[simp] theorem State.setVolume_freeCount : (s.setVolume v).freeCount = s.freeCount := rfl
@[simp] theorem State.setVolume_cycle : (s.setVolume v).cycle = s.cycle := rfl
@[simp] theorem State.setVolume_trace : (s.setVolume v).trace = s.trace := rfl

@[simp] theorem State.clearTransient_cfg : (s.clearTransient).cfg = s.cfg := rfl
@[simp] theorem State.clearTransient_st : (s.clearTransient).st = s.st := rfl
@[simp] theorem State.clearTransient_irQ : (s.clearTransient).irQ = s.irQ := rfl
@[simp] theorem State.clearTransient_pcnt : (s.clearTransient).pcnt = 0 := rfl
@[simp] theorem State.clearTransient_lead : (s.clearTransient).lead = 0 := rfl
@[simp] theorem State.clearTransient_frame : (s.clearTransient).frame = 0 := rfl
@[simp] theorem State.clearTransient_nbits : (s.clearTransient).nbits = 0 := rfl
@[simp] theorem State.clearTransient_last : (s.clearTransient).last = s.last := rfl
@[simp] theorem State.clearTransient_rcount : (s.clearTransient).rcount = s.rcount := rfl
@[simp] theorem State.clearTransient_gap : (s.clearTransient).gap = s.gap := rfl
@[simp] theorem State.clearTransient_cur : (s.clearTransient).cur = s.cur := rfl
@[simp] theorem State.clearTransient_tens : (s.clearTransient).tens = s.tens := rfl
@[simp] theorem State.clearTransient_ones : (s.clearTransient).ones = s.ones := rfl
@[simp] theorem State.clearTransient_savCur : (s.clearTransient).savCur = s.savCur := rfl
@[simp] theorem State.clearTransient_savTens : (s.clearTransient).savTens = s.savTens := rfl
@[simp] theorem State.clearTransient_savOnes : (s.clearTransient).savOnes = s.savOnes := rfl
@[simp] theorem State.clearTransient_segTens : (s.clearTransient).segTens = s.segTens := rfl
@[simp] theorem State.clearTransient_segOnes : (s.clearTransient).segOnes = s.segOnes := rfl
@[simp] theorem State.clearTransient_inputs : (s.clearTransient).inputs = s.inputs := rfl
@[simp] theorem State.clearTransient_freeCount : (s.clearTransient).freeCount = s.freeCount := rfl
@[simp] theorem State.clearTransient_cycle : (s.clearTransient).cycle = s.cycle := rfl
@[simp] theorem State.clearTransient_trace : (s.clearTransient).trace = s.trace := rfl

@[simp] theorem State.abort_cfg : (s.abort).cfg = s.cfg := rfl
@[simp] theorem State.abort_st : (s.abort).st = .idle := rfl
@[simp] theorem State.abort_irQ : (s.abort).irQ = s.irQ := rfl
@[simp] theorem State.abort_pcnt : (s.abort).pcnt = 0 := rfl
@[simp] theorem State.abort_lead : (s.abort).lead = 0 := rfl
@[simp] theorem State.abort_frame : (s.abort).frame = 0 := rfl
@[simp] theorem State.abort_nbits : (s.abort).nbits = 0 := rfl
@[simp] theorem State.abort_last : (s.abort).last = s.last := rfl
@[simp] theorem State.abort_rcount : (s.abort).rcount = s.rcount := rfl
@[simp] theorem State.abort_gap : (s.abort).gap = s.gap := rfl
@[simp] theorem State.abort_cur : (s.abort).cur = s.cur := rfl
@[simp] theorem State.abort_tens : (s.abort).tens = s.tens := rfl
@[simp] theorem State.abort_ones : (s.abort).ones = s.ones := rfl
@[simp] theorem State.abort_savCur : (s.abort).savCur = s.savCur := rfl
@[simp] theorem State.abort_savTens : (s.abort).savTens = s.savTens := rfl
@[simp] theorem State.abort_savOnes : (s.abort).savOnes = s.savOnes := rfl
@[simp] theorem State.abort_segTens : (s.abort).segTens = s.segTens := rfl
@[simp] theorem State.abort_segOnes : (s.abort).segOnes = s.segOnes := rfl
@[simp] theorem State.abort_inputs : (s.abort).inputs = s.inputs := rfl
@[simp] theorem State.abort_freeCount : (s.abort).freeCount = s.freeCount := rfl
@[simp] theorem State.abort_cycle : (s.abort).cycle = s.cycle := rfl
@[simp] theorem State.abort_trace : (s.abort).trace = s.trace := rfl

@[simp] theorem State.record_cfg : (s.record e).cfg = s.cfg := rfl
@[simp] theorem State.record_st : (s.record e).st = s.st := rfl
@[simp] theorem State.record_irQ : (s.record e).irQ = s.irQ := rfl
@[simp] theorem State.record_pcnt : (s.record e).pcnt = s.pcnt := rfl
@[simp] theorem State.record_lead : (s.record e).lead = s.lead := rfl
@[simp] theorem State.record_frame : (s.record e).frame = s.frame := rfl
@[simp] theorem State.record_nbits : (s.record e).nbits = s.nbits := rfl
@[simp] theorem State.record_last : (s.record e).last = s.last := rfl
@[simp] theorem State.record_rcount : (s.record e).rcount = s.rcount := rfl
@[simp] theorem State.record_gap : (s.record e).gap = s.gap := rfl
@[simp] theorem State.record_cur : (s.record e).cur = s.cur := rfl
@[simp] theorem State.record_tens : (s.record e).tens = s.tens := rfl
@[simp] theorem State.record_ones : (s.record e).ones = s.ones := rfl
@[simp] theorem State.record_savCur : (s.record e).savCur = s.savCur := rfl
@[simp] theorem State.record_savTens : (s.record e).savTens = s.savTens := rfl
@[simp] theorem State.record_savOnes : (s.record e).savOnes = s.savOnes := rfl
@[simp] theorem State.record_segTens : (s.record e).segTens = s.segTens := rfl
@[simp] theorem State.record_segOnes : (s.record e).segOnes = s.segOnes := rfl
@[simp] theorem State.record_inputs : (s.record e).inputs = s.inputs := rfl
@[simp] theorem State.record_freeCount : (s.record e).freeCount = s.freeCount := rfl
@[simp] theorem State.record_cycle : (s.record e).cycle = s.cycle := rfl
@[simp] theorem State.record_trace : (s.record e).trace = s.trace ++ [(s.cycle, e)] := rfl

@[simp] theorem State.memWrite_att_cfg : (s.memWrite .att b).cfg = s.cfg := rfl
@[simp] theorem State.memWrite_att_st : (s.memWrite .att b).st = s.st := rfl
@[simp] theorem State.memWrite_att_irQ : (s.memWrite .att b).irQ = s.irQ := rfl
@[simp] theorem State.memWrite_att_pcnt : (s.memWrite .att b).pcnt = s.pcnt := rfl
@[simp] theorem State.memWrite_att_lead : (s.memWrite .att b).lead = s.lead := rfl
@[simp] theorem State.memWrite_att_frame : (s.memWrite .att b).frame = s.frame := rfl
@[simp] theorem State.memWrite_att_nbits : (s.memWrite .att b).nbits = s.nbits := rfl
@[simp] theorem State.memWrite_att_last : (s.memWrite .att b).last = s.last := rfl
@[simp] theorem State.memWrite_att_rcount : (s.memWrite .att b).rcount = s.rcount := rfl
@[simp] theorem State.memWrite_att_gap : (s.memWrite .att b).gap = s.gap := rfl
@[simp] theorem State.memWrite_att_cur : (s.memWrite .att b).cur = s.cur := rfl
@[simp] theorem State.memWrite_att_tens : (s.memWrite .att b).tens = s.tens := rfl
@[simp] theorem State.memWrite_att_ones : (s.memWrite .att b).ones = s.ones := rfl
@[simp] theorem State.memWrite_att_savCur : (s.memWrite .att b).savCur = s.savCur := rfl
@[simp] theorem State.memWrite_att_savTens : (s.memWrite .att b).savTens = s.savTens := rfl
@[simp] theorem State.memWrite_att_savOnes : (s.memWrite .att b).savOnes = s.savOnes := rfl
@[simp] theorem State.memWrite_att_segTens : (s.memWrite .att b).segTens = s.segTens := rfl
@[simp] theorem State.memWrite_att_segOnes : (s.memWrite .att b).segOnes = s.segOnes := rfl
@[simp] theorem State.memWrite_att_inputs : (s.memWrite .att b).inputs = s.inputs := rfl
@[simp] theorem State.memWrite_att_freeCount : (s.memWrite .att b).freeCount = s.freeCount := rfl
@[simp] theorem State.memWrite_att_cycle : (s.memWrite .att b).cycle = s.cycle := rfl
@[simp] theorem State.memWrite_att_trace : (s.memWrite .att b).trace = s.trace ++ [(s.cycle, .attByte b)] := rfl

@[simp] theorem State.memWrite_dispTens_cfg : (s.memWrite .dispTens b).cfg = s.cfg := rfl
@[simp] theorem State.memWrite_dispTens_st : (s.memWrite .dispTens b).st = s.st := rfl
@[simp] theorem State.memWrite_dispTens_irQ : (s.memWrite .dispTens b).irQ = s.irQ := rfl
@[simp] theorem State.memWrite_dispTens_pcnt : (s.memWrite .dispTens b).pcnt = s.pcnt := rfl
@[simp] theorem State.memWrite_dispTens_lead : (s.memWrite .dispTens b).lead = s.lead := rfl
@[simp] theorem State.memWrite_dispTens_frame : (s.memWrite .dispTens b).frame = s.frame := rfl
@[simp] theorem State.memWrite_dispTens_nbits : (s.memWrite .dispTens b).nbits = s.nbits := rfl
@[simp] theorem State.memWrite_dispTens_last : (s.memWrite .dispTens b).last = s.last := rfl
@[simp] theorem State.memWrite_dispTens_rcount : (s.memWrite .dispTens b).rcount = s.rcount := rfl
@[simp] theorem State.memWrite_dispTens_gap : (s.memWrite .dispTens b).gap = s.gap := rfl
@[simp] theorem State.memWrite_dispTens_cur : (s.memWrite .dispTens b).cur = s.cur := rfl
@[simp] theorem State.memWrite_dispTens_tens : (s.memWrite .dispTens b).tens = s.tens := rfl
@[simp] theorem State.memWrite_dispTens_ones : (s.memWrite .dispTens b).ones = s.ones := rfl
@[simp] theorem State.memWrite_dispTens_savCur : (s.memWrite .dispTens b).savCur = s.savCur := rfl
@[simp] theorem State.memWrite_dispTens_savTens : (s.memWrite .dispTens b).savTens = s.savTens := rfl
@[simp] theorem State.memWrite_dispTens_savOnes : (s.memWrite .dispTens b).savOnes = s.savOnes := rfl
@[simp] theorem State.memWrite_dispTens_segTens : (s.memWrite .dispTens b).segTens = b := rfl
@[simp] theorem State.memWrite_dispTens_segOnes : (s.memWrite .dispTens b).segOnes = s.segOnes := rfl
@[simp] theorem State.memWrite_dispTens_inputs : (s.memWrite .dispTens b).inputs = s.inputs := rfl
@[simp] theorem State.memWrite_dispTens_freeCount : (s.memWrite .dispTens b).freeCount = s.freeCount := rfl
@[simp] theorem State.memWrite_dispTens_cycle : (s.memWrite .dispTens b).cycle = s.cycle := rfl
@[simp] theorem State.memWrite_dispTens_trace : (s.memWrite .dispTens b).trace = s.trace ++ [(s.cycle, .dispTens b)] := rfl

@[simp] theorem State.memWrite_dispOnes_cfg : (s.memWrite .dispOnes b).cfg = s.cfg := rfl
@[simp] theorem State.memWrite_dispOnes_st : (s.memWrite .dispOnes b).st = s.st := rfl
@[simp] theorem State.memWrite_dispOnes_irQ : (s.memWrite .dispOnes b).irQ = s.irQ := rfl
@[simp] theorem State.memWrite_dispOnes_pcnt : (s.memWrite .dispOnes b).pcnt = s.pcnt := rfl
@[simp] theorem State.memWrite_dispOnes_lead : (s.memWrite .dispOnes b).lead = s.lead := rfl
@[simp] theorem State.memWrite_dispOnes_frame : (s.memWrite .dispOnes b).frame = s.frame := rfl
@[simp] theorem State.memWrite_dispOnes_nbits : (s.memWrite .dispOnes b).nbits = s.nbits := rfl
@[simp] theorem State.memWrite_dispOnes_last : (s.memWrite .dispOnes b).last = s.last := rfl
@[simp] theorem State.memWrite_dispOnes_rcount : (s.memWrite .dispOnes b).rcount = s.rcount := rfl
@[simp] theorem State.memWrite_dispOnes_gap : (s.memWrite .dispOnes b).gap = s.gap := rfl
@[simp] theorem State.memWrite_dispOnes_cur : (s.memWrite .dispOnes b).cur = s.cur := rfl
@[simp] theorem State.memWrite_dispOnes_tens : (s.memWrite .dispOnes b).tens = s.tens := rfl
@[simp] theorem State.memWrite_dispOnes_ones : (s.memWrite .dispOnes b).ones = s.ones := rfl
@[simp] theorem State.memWrite_dispOnes_savCur : (s.memWrite .dispOnes b).savCur = s.savCur := rfl
@[simp] theorem State.memWrite_dispOnes_savTens : (s.memWrite .dispOnes b).savTens = s.savTens := rfl
@[simp] theorem State.memWrite_dispOnes_savOnes : (s.memWrite .dispOnes b).savOnes = s.savOnes := rfl
@[simp] theorem State.memWrite_dispOnes_segTens : (s.memWrite .dispOnes b).segTens = s.segTens := rfl
@[simp] theorem State.memWrite_dispOnes_segOnes : (s.memWrite .dispOnes b).segOnes = b := rfl
@[simp] theorem State.memWrite_dispOnes_inputs : (s.memWrite .dispOnes b).inputs = s.inputs := rfl
@[simp] theorem State.memWrite_dispOnes_freeCount : (s.memWrite .dispOnes b).freeCount = s.freeCount := rfl
@[simp] theorem State.memWrite_dispOnes_cycle : (s.memWrite .dispOnes b).cycle = s.cycle := rfl
@[simp] theorem State.memWrite_dispOnes_trace : (s.memWrite .dispOnes b).trace = s.trace ++ [(s.cycle, .dispOnes b)] := rfl

@[simp] theorem State.nextSample_cfg : (s.nextSample).cfg = s.cfg := rfl
@[simp] theorem State.nextSample_st : (s.nextSample).st = s.st := rfl
@[simp] theorem State.nextSample_irQ : (s.nextSample).irQ = s.irQ := rfl
@[simp] theorem State.nextSample_pcnt : (s.nextSample).pcnt = s.pcnt := rfl
@[simp] theorem State.nextSample_lead : (s.nextSample).lead = s.lead := rfl
@[simp] theorem State.nextSample_frame : (s.nextSample).frame = s.frame := rfl
@[simp] theorem State.nextSample_nbits : (s.nextSample).nbits = s.nbits := rfl
@[simp] theorem State.nextSample_last : (s.nextSample).last = s.last := rfl
@[simp] theorem State.nextSample_rcount : (s.nextSample).rcount = s.rcount := rfl
@[simp] theorem State.nextSample_gap : (s.nextSample).gap = s.gap := rfl
@[simp] theorem State.nextSample_cur : (s.nextSample).cur = s.cur := rfl
@[simp] theorem State.nextSample_tens : (s.nextSample).tens = s.tens := rfl
@[simp] theorem State.nextSample_ones : (s.nextSample).ones = s.ones := rfl
@[simp] theorem State.nextSample_savCur : (s.nextSample).savCur = s.savCur := rfl
@[simp] theorem State.nextSample_savTens : (s.nextSample).savTens = s.savTens := rfl
@[simp] theorem State.nextSample_savOnes : (s.nextSample).savOnes = s.savOnes := rfl
@[simp] theorem State.nextSample_segTens : (s.nextSample).segTens = s.segTens := rfl
@[simp] theorem State.nextSample_segOnes : (s.nextSample).segOnes = s.segOnes := rfl
@[simp] theorem State.nextSample_inputs : (s.nextSample).inputs = s.inputs.tail := rfl
@[simp] theorem State.nextSample_freeCount : (s.nextSample).freeCount = if s.inputs.isEmpty then s.freeCount + 1 else s.freeCount := rfl
@[simp] theorem State.nextSample_cycle : (s.nextSample).cycle = s.cycle + 1 := rfl
@[simp] theorem State.nextSample_trace : (s.nextSample).trace = s.trace := rfl

@[simp] theorem State.idleClear_cfg : (t.idleClear f).cfg = t.cfg := by cases f <;> rfl
@[simp] theorem State.idleClear_st : (t.idleClear f).st = t.st := by cases f <;> rfl
@[simp] theorem State.idleClear_irQ : (t.idleClear f).irQ = t.irQ := by cases f <;> rfl
@[simp] theorem State.idleClear_pcnt : (t.idleClear f).pcnt = t.pcnt := by cases f <;> rfl
@[simp] theorem State.idleClear_lead : (t.idleClear f).lead = t.lead := by cases f <;> rfl
@[simp] theorem State.idleClear_frame : (t.idleClear f).frame = t.frame := by cases f <;> rfl
@[simp] theorem State.idleClear_nbits : (t.idleClear f).nbits = t.nbits := by cases f <;> rfl
@[simp] theorem State.idleClear_last : (t.idleClear f).last = if f then none else t.last := by cases f <;> rfl
@[simp] theorem State.idleClear_rcount : (t.idleClear f).rcount = if f then 0 else t.rcount := by cases f <;> rfl
@[simp] theorem State.idleClear_gap : (t.idleClear f).gap = t.gap := by cases f <;> rfl
@[simp] theorem State.idleClear_cur : (t.idleClear f).cur = t.cur := by cases f <;> rfl
@[simp] theorem State.idleClear_tens : (t.idleClear f).tens = t.tens := by cases f <;> rfl
@[simp] theorem State.idleClear_ones : (t.idleClear f).ones = t.ones := by cases f <;> rfl
@[simp] theorem State.idleClear_savCur : (t.idleClear f).savCur = t.savCur := by cases f <;> rfl
@[simp] theorem State.idleClear_savTens : (t.idleClear f).savTens = t.savTens := by cases f <;> rfl
@[simp] theorem State.idleClear_savOnes : (t.idleClear f).savOnes = t.savOnes := by cases f <;> rfl
@[simp] theorem State.idleClear_segTens : (t.idleClear f).segTens = t.segTens := by cases f <;> rfl
@[simp] theorem State.idleClear_segOnes : (t.idleClear f).segOnes = t.segOnes := by cases f <;> rfl
@[simp] theorem State.idleClear_inputs : (t.idleClear f).inputs = t.inputs := by cases f <;> rfl
@[simp] theorem State.idleClear_freeCount : (t.idleClear f).freeCount = t.freeCount := by cases f <;> rfl
@[simp] theorem State.idleClear_cycle : (t.idleClear f).cycle = t.cycle := by cases f <;> rfl
@[simp] theorem State.idleClear_trace : (t.idleClear f).trace = t.trace := by cases f <;> rfl

@[simp] theorem State.endCycle_cfg : (s.endCycle a t).cfg = t.cfg := by simp [State.endCycle]
@[simp] theorem State.endCycle_st : (s.endCycle a t).st = t.st := by simp [State.endCycle]
@[simp] theorem State.endCycle_irQ : (s.endCycle a t).irQ = s.input.irIn := by simp [State.endCycle]
@[simp] theorem State.endCycle_pcnt : (s.endCycle a t).pcnt = t.pcnt := by simp [State.endCycle]
@[simp] theorem State.endCycle_lead : (s.endCycle a t).lead = t.lead := by simp [State.endCycle]
@[simp] theorem State.endCycle_frame : (s.endCycle a t).frame = t.frame := by simp [State.endCycle]
@[simp] theorem State.endCycle_nbits : (s.endCycle a t).nbits = t.nbits := by simp [State.endCycle]
@[simp] theorem State.endCycle_last : (s.endCycle a t).last = if s.clearFires a then none else t.last := by simp [State.endCycle]
@[simp] theorem State.endCycle_rcount : (s.endCycle a t).rcount = if s.clearFires a then 0 else t.rcount := by simp [State.endCycle]
@[simp] theorem State.endCycle_gap : (s.endCycle a t).gap = s.nextGap a := by simp [State.endCycle]
@[simp] theorem State.endCycle_cur : (s.endCycle a t).cur = t.cur := by simp [State.endCycle]
@[simp] theorem State.endCycle_tens : (s.endCycle a t).tens = t.tens := by simp [State.endCycle]
@[simp] theorem State.endCycle_ones : (s.endCycle a t).ones = t.ones := by simp [State.endCycle]
@[simp] theorem State.endCycle_savCur : (s.endCycle a t).savCur = t.savCur := by simp [State.endCycle]
@[simp] theorem State.endCycle_savTens : (s.endCycle a t).savTens = t.savTens := by simp [State.endCycle]
@[simp] theorem State.endCycle_savOnes : (s.endCycle a t).savOnes = t.savOnes := by simp [State.endCycle]
@[simp] theorem State.endCycle_segTens : (s.endCycle a t).segTens = t.segTens := by simp [State.endCycle]
@[simp] theorem State.endCycle_segOnes : (s.endCycle a t).segOnes = t.segOnes := by simp [State.endCycle]
@[simp] theorem State.endCycle_inputs : (s.endCycle a t).inputs = t.inputs.tail := by simp [State.endCycle]
@[simp] theorem State.endCycle_freeCount : (s.endCycle a t).freeCount = if t.inputs.isEmpty then t.freeCount + 1 else t.freeCount := by simp [State.endCycle]
@[simp] theorem State.endCycle_cycle : (s.endCycle a t).cycle = t.cycle + 1 := by simp [State.endCycle]
@[simp] theorem State.endCycle_trace : (s.endCycle a t).trace = t.trace := by simp [State.endCycle]

@[simp] theorem State.resetCycle_cfg : s.resetCycle.cfg = (State.resetWith s.cfg).cfg := rfl
@[simp] theorem State.resetCycle_st : s.resetCycle.st = (State.resetWith s.cfg).st := rfl
@[simp] theorem State.resetCycle_irQ : s.resetCycle.irQ = (State.resetWith s.cfg).irQ := rfl
@[simp] theorem State.resetCycle_pcnt : s.resetCycle.pcnt = (State.resetWith s.cfg).pcnt := rfl
@[simp] theorem State.resetCycle_lead : s.resetCycle.lead = (State.resetWith s.cfg).lead := rfl
@[simp] theorem State.resetCycle_frame : s.resetCycle.frame = (State.resetWith s.cfg).frame := rfl
@[simp] theorem State.resetCycle_nbits : s.resetCycle.nbits = (State.resetWith s.cfg).nbits := rfl
@[simp] theorem State.resetCycle_last : s.resetCycle.last = (State.resetWith s.cfg).last := rfl
@[simp] theorem State.resetCycle_rcount : s.resetCycle.rcount = (State.resetWith s.cfg).rcount := rfl
@[simp] theorem State.resetCycle_gap : s.resetCycle.gap = (State.resetWith s.cfg).gap := rfl
@[simp] theorem State.resetCycle_cur : s.resetCycle.cur = (State.resetWith s.cfg).cur := rfl
@[simp] theorem State.resetCycle_tens : s.resetCycle.tens = (State.resetWith s.cfg).tens := rfl
@[simp] theorem State.resetCycle_ones : s.resetCycle.ones = (State.resetWith s.cfg).ones := rfl
@[simp] theorem State.resetCycle_savCur : s.resetCycle.savCur = (State.resetWith s.cfg).savCur := rfl
@[simp] theorem State.resetCycle_savTens : s.resetCycle.savTens = (State.resetWith s.cfg).savTens := rfl
@[simp] theorem State.resetCycle_savOnes : s.resetCycle.savOnes = (State.resetWith s.cfg).savOnes := rfl
@[simp] theorem State.resetCycle_segTens : s.resetCycle.segTens = (State.resetWith s.cfg).segTens := rfl
@[simp] theorem State.resetCycle_segOnes : s.resetCycle.segOnes = (State.resetWith s.cfg).segOnes := rfl
@[simp] theorem State.resetCycle_inputs : s.resetCycle.inputs = s.inputs.tail := rfl
@[simp] theorem State.resetCycle_freeCount : s.resetCycle.freeCount = if s.inputs.isEmpty then s.freeCount + 1 else s.freeCount := rfl
@[simp] theorem State.resetCycle_cycle : s.resetCycle.cycle = 0 := rfl
@[simp] theorem State.resetCycle_trace : s.resetCycle.trace = s.trace := rfl

@[simp] theorem State.volume_setVolume : (s.setVolume v).volume = v := rfl

@[simp] theorem State.setVolume_volume : s.setVolume s.volume = s := rfl

end Sys2Proof.Machine
end

