-- ==== Sys2Proof/Laws/Ops.lean ====
section
/-! SUPPORT. For each shared operation, one lemma that says what it can do, for later proofs to cite instead of unfolding
it: table reads, the end of a cycle, the pulse timer, the gate, the three ways a cycle can go, and the cause it names. -/

namespace Sys2Proof.Machine

/-! ### Legal configurations -/

theorem Config.legal_parts {c : Config} (h : c.legal = true) :
    c.k1 = true ∧ c.k2 = true ∧ c.k3 = true ∧ c.k4 = true ∧ c.k5 = true := by
  simpa [Config.legal, and_assoc] using h

theorem legal_pulseCeil {c : Config} (h : c.legal = true) : 2 ≤ c.pulseCeil := by
  have := (Config.legal_parts h).1
  simp only [Config.k1, decide_eq_true_eq] at this
  exact this.1

theorem legal_gap_order {c : Config} (h : c.legal = true) :
    0 < c.tGap ∧ c.tGap < c.tIdle ∧ c.tIdle < c.tRepeat ∧ c.tRepeat ≤ c.gapCeil ∧ c.gapCeil < 2 ^ c.gapW := by
  simpa [Config.k2] using (Config.legal_parts h).2.1

theorem legal_attenLut {c : Config} (h : c.legal = true) :
    c.attenLut.length = 100 ∧ c.attenLut[0]? = some 0 ∧ c.attenLut[99]? = some 255 ∧
      nonDecreasing c.attenLut = true := by
  have := (Config.legal_parts h).2.2.2.1
  simpa only [Config.k4, Bool.and_eq_true, decide_eq_true_eq, and_assoc] using this

theorem nonDecreasing_getElem? : ∀ {l : List Byte}, nonDecreasing l = true → ∀ {i j : Nat} {a b : Byte}, i ≤ j →
    l[i]? = some a → l[j]? = some b → a.toNat ≤ b.toNat
  | [], _, i, j, a, b, _, h, _ => by simp at h
  | [x], _, i, j, a, b, hij, h1, h2 => by
    have hi : i = 0 := by by_contra h; simp [h] at h1
    have hj : j = 0 := by by_contra h; simp [h] at h2
    subst hi hj; rw [h1] at h2; cases h2; exact Nat.le_refl _
  | x :: y :: l, h, i, j, a, b, hij, h1, h2 => by
    simp only [nonDecreasing, Bool.and_eq_true, decide_eq_true_eq] at h
    cases j with
    | zero =>
      have hi : i = 0 := by omega
      subst hi; rw [h1] at h2; cases h2; exact Nat.le_refl _
    | succ j =>
      rw [List.getElem?_cons_succ] at h2
      cases i with
      | succ i => rw [List.getElem?_cons_succ] at h1; exact nonDecreasing_getElem? h.2 (by omega) h1 h2
      | zero =>
        rw [List.getElem?_cons_zero] at h1; cases h1
        exact Nat.le_trans h.1 (nonDecreasing_getElem? (i := 0) h.2 (Nat.zero_le j) List.getElem?_cons_zero h2)

theorem legal_segLut {c : Config} (h : c.legal = true) :
    c.segLut.length = 10 ∧ c.segLut[0]? ≠ some c.segBlank := by
  simpa only [Config.k5, decide_eq_true_eq] using (Config.legal_parts h).2.2.2.2

/-! ### Table reads -/

theorem attenuationFor_eq (c : Config) (v : Nat) : attenuationFor c v = c.attenLut[v]? := rfl

theorem attenuationFor_of_le {c : Config} (h : c.legal = true) {v : Nat} (hv : v ≤ 99) :
    ∃ b, attenuationFor c v = some b := by
  have := (legal_attenLut h).1
  exact ⟨c.attenLut[v]'(by omega), by rw [attenuationFor_eq]; exact List.getElem?_eq_getElem _⟩

theorem attenuationFor_of_gt {c : Config} (h : c.legal = true) {v : Nat} (hv : 99 < v) :
    attenuationFor c v = none := by
  have := (legal_attenLut h).1
  rw [attenuationFor_eq]; exact List.getElem?_eq_none (by omega)

theorem segmentsFor_tens_zero (c : Config) : segmentsFor c 0 true = some c.segBlank := by
  simp [segmentsFor]

theorem segmentsFor_of_pos (c : Config) {d : Nat} (t : Bool) (hd : d ≠ 0) : segmentsFor c d t = c.segLut[d]? := by
  simp [segmentsFor, hd, memRead, Config.table]

theorem segmentsFor_ones (c : Config) (d : Nat) : segmentsFor c d false = c.segLut[d]? := by
  simp [segmentsFor, memRead, Config.table]

theorem segmentsFor_of_le {c : Config} (h : c.legal = true) {d : Nat} (t : Bool) (hd : d ≤ 9) :
    ∃ b, segmentsFor c d t = some b := by
  have := (legal_segLut h).1
  unfold segmentsFor
  split
  · exact ⟨_, rfl⟩
  · exact ⟨c.segLut[d]'(by omega), by simp [memRead, Config.table, List.getElem?_eq_getElem (show d < c.segLut.length by omega)]⟩

theorem segmentsFor_of_gt {c : Config} (h : c.legal = true) {d : Nat} (t : Bool) (hd : 9 < d) :
    segmentsFor c d t = none := by
  have := (legal_segLut h).1
  rw [segmentsFor_of_pos c t (by omega)]; exact List.getElem?_eq_none (by omega)

/-! ### The end of a cycle -/

theorem atCap_iff (r : BitVec 3) : atCap r = true ↔ r = 5 := by
  revert r; decide

theorem clearFires_false_iff (s : State) : s.clearFires false = true ↔ IdleClearDue s := by
  unfold State.clearFires State.clearInScope IdleClearDue
  cases s.cfg.clearScope <;> simp [atCap_iff, and_assoc]

@[simp] theorem clearFires_true (s : State) : s.clearFires true = false := by
  simp [State.clearFires]

/-- A cycle without an acceptance: the background rules hold of its end, whatever the sequencer wrote to the other
registers. -/
theorem endCycle_quiet {s t : State} (hc : t.cfg = s.cfg) (hi : t.inputs = s.inputs) (hf : t.freeCount = s.freeCount)
    (hy : t.cycle = s.cycle) (hl : t.last = s.last) (hr : t.rcount = s.rcount) :
    QuietBackground s (s.endCycle false t) := by
  refine ⟨⟨by simp [hc], by simp [hi], by simp [hi, hf], by simp [hy]⟩, by simp [LineSampled], ⟨?_, ?_⟩, ?_⟩
  · intro h; simp [(clearFires_false_iff s).2 h]
  · intro h
    have : s.clearFires false = false := by
      rw [Bool.eq_false_iff]; exact fun hh => h ((clearFires_false_iff s).1 hh)
    simp [this, hl, hr]
  · simp [GapCounts, State.nextGap]

/-! ### The pulse timer -/

theorem continues_iff (s : State) :
    s.continues = true ↔
      Measuring s.st ∧ s.input.irIn = (if s.st = .leadHi ∨ s.st = .bitHi then true else false) := by
  unfold State.continues
  cases s.st <;> cases s.input.irIn <;> simp [Seq.level, Measuring]

/-! ### The frame decoder -/

theorem thr_eq (l : Nat) : thr l = (l / 4 + l / 8) / 2 := by simp [thr, Nat.shiftRight_eq_div_pow]

theorem shiftIn_toNat (f : Word) (b : Bool) : (shiftIn f b).toNat = f.toNat / 2 + if b then 2 ^ 31 else 0 := by
  have hf := f.isLt
  have hd : f.toNat / 2 < 2 ^ 31 := by omega
  unfold shiftIn
  rw [BitVec.toNat_add, BitVec.toNat_ushiftRight, Nat.shiftRight_eq_div_pow, BitVec.toNat_shiftLeft, pow_one]
  cases b
  · simp only [BitVec.ofBool_false, BitVec.toNat_setWidth]
    exact Nat.mod_eq_of_lt (by omega)
  · have : (BitVec.setWidth 32 (BitVec.ofBool true)).toNat = 1 := by decide
    rw [this, Nat.shiftLeft_eq, one_mul, Nat.mod_eq_of_lt (by norm_num : 2 ^ 31 < 2 ^ 32)]
    simp only [if_true]
    exact Nat.mod_eq_of_lt (by omega)

/-! ### The gate -/

/-- The signal `accept` is the condition of R131 to R133. -/
theorem gateAnswer_accept_iff (s : State) (i : Instr) : (s.gateAnswer i).accept = true ↔ GateLetsThrough s i := by
  unfold State.gateAnswer gate GateLetsThrough
  split
  · simp; omega
  · split
    · split
      · rename_i h2 h; simp only [fastPath, Bool.and_eq_true, atCap_iff, bne_iff_ne] at h
        simp only [h2, true_iff]
        exact ⟨by omega, .inr (by simpa using h)⟩
      · rename_i h2 h; simp only [fastPath, Bool.and_eq_true, atCap_iff, bne_iff_ne] at h
        simp [h2]
        intro _
        simpa [not_or] using h
    · simp_all

/-- A rejection leaves the gate's registers as they were (R135). -/
theorem gateAnswer_of_reject {s : State} {i : Instr} (h : (s.gateAnswer i).accept = false) :
    (s.gateAnswer i).last = s.last ∧ (s.gateAnswer i).rcount = s.rcount := by
  unfold State.gateAnswer gate at *
  split_ifs at * <;> simp_all

/-- An acceptance leaves the command in `last` and counts it (R132, R133). -/
theorem gateAnswer_of_accept {s : State} {i : Instr} (h : (s.gateAnswer i).accept = true) :
    (s.gateAnswer i).last = some i ∧
      (s.gateAnswer i).rcount.toNat = if s.last = some i then min (s.rcount.toNat + 1) 5 else 1 := by
  unfold State.gateAnswer gate at *
  split_ifs at * with h1 h2 h3
  · simp [h2, narrow, repeatCap]
  · simp

/-! ### The volume rules -/

/-- The three cases of `VOL_UP` (R150). -/
theorem volUp_cases (v : Volume) :
    (v.cur.toNat = 99 ∧ volUp v = v) ∨
    (v.cur.toNat ≠ 99 ∧ v.ones.toNat + 1 = 10 ∧
      volUp v = { v with cur := narrow 7 (v.cur.toNat + 1), ones := 0, tens := narrow 4 (v.tens.toNat + 1) }) ∨
    (v.cur.toNat ≠ 99 ∧ v.ones.toNat + 1 ≠ 10 ∧
      volUp v = { v with cur := narrow 7 (v.cur.toNat + 1), ones := narrow 4 (v.ones.toNat + 1) }) := by
  unfold volUp
  split_ifs with h1 h2
  · exact .inl ⟨h1, rfl⟩
  · exact .inr (.inl ⟨h1, h2, rfl⟩)
  · exact .inr (.inr ⟨h1, h2, rfl⟩)

/-- The three cases of `VOL_DOWN` (R151). -/
theorem volDown_cases (v : Volume) :
    (v.cur.toNat = 0 ∧ volDown v = v) ∨
    (v.cur.toNat ≠ 0 ∧ v.ones.toNat = 0 ∧
      volDown v = { v with cur := narrow 7 (v.cur.toNat - 1), ones := 9, tens := v.tens - 1 }) ∨
    (v.cur.toNat ≠ 0 ∧ v.ones.toNat ≠ 0 ∧
      volDown v = { v with cur := narrow 7 (v.cur.toNat - 1), ones := narrow 4 (v.ones.toNat - 1) }) := by
  unfold volDown
  split_ifs with h1 h2
  · exact .inl ⟨h1, rfl⟩
  · exact .inr (.inl ⟨h1, h2, rfl⟩)
  · exact .inr (.inr ⟨h1, h2, rfl⟩)

/-- The two cases of `MUTE` (R152). -/
theorem mute_cases (v : Volume) :
    (0 < v.cur.toNat ∧
      mute v = { cur := 0, tens := 0, ones := 0, savCur := v.cur, savTens := v.tens, savOnes := v.ones }) ∨
    (v.cur.toNat = 0 ∧
      mute v = { cur := v.savCur, tens := v.savTens, ones := v.savOnes, savCur := 0, savTens := 0, savOnes := 0 }) := by
  unfold mute
  split_ifs with h
  · exact .inl ⟨h, rfl⟩
  · exact .inr ⟨by omega, rfl⟩

/-! ### The Done cycle of a recognised command -/

/-- The volume rule of an instruction (R156). -/
def volApply : Instr → Volume → Volume
  | .volUp => volUp
  | .volDown => volDown
  | .mute => mute

theorem exec_eq (i : Instr) (s : State) : exec i s = .next (s.commandCycle i (volApply i)) := by
  cases i <;> rfl

theorem commandCycle_of_accept {s : State} {i : Instr} (ap : Volume → Volume) (h : GateLetsThrough s i) :
    s.commandCycle i ap = s.endCycle true (s.accepted (s.gateAnswer i) ap) := by
  simp [State.commandCycle, (gateAnswer_accept_iff s i).2 h]

theorem commandCycle_of_reject {s : State} {i : Instr} (ap : Volume → Volume) (h : ¬ GateLetsThrough s i) :
    s.commandCycle i ap = s.endCycle false (s.rejected (s.gateAnswer i)) := by
  simp [State.commandCycle, mt (gateAnswer_accept_iff s i).1 h]

/-- Everything an accepted command does beside its volume rule. -/
theorem commandCycle_accept_frame {s : State} {i : Instr} (ap : Volume → Volume) (h : GateLetsThrough s i) :
    AcceptedFrame s (s.commandCycle i ap) i ∧ (s.commandCycle i ap).volume = ap s.volume := by
  have g := gateAnswer_of_accept ((gateAnswer_accept_iff s i).2 h)
  rw [commandCycle_of_accept ap h]
  refine ⟨?_, by simp [State.volume, State.accepted]⟩
  simp [State.accepted, State.nextGap, g, AcceptedFrame, TransientCleared, DisplayKept, NoEvent, EnvAdvances,
    LineSampled]

/-- The volume registers after an accepted command, one by one. -/
theorem commandCycle_accept_volume {s : State} {i : Instr} (ap : Volume → Volume) (h : GateLetsThrough s i) :
    (s.commandCycle i ap).cur = (ap s.volume).cur ∧ (s.commandCycle i ap).tens = (ap s.volume).tens ∧
      (s.commandCycle i ap).ones = (ap s.volume).ones ∧ (s.commandCycle i ap).savCur = (ap s.volume).savCur ∧
      (s.commandCycle i ap).savTens = (ap s.volume).savTens ∧
      (s.commandCycle i ap).savOnes = (ap s.volume).savOnes := by
  have := (commandCycle_accept_frame ap h).2
  refine ⟨?_, ?_, ?_, ?_, ?_, ?_⟩ <;> rw [← this] <;> rfl

/-- A command the gate turns away has none of its effect. -/
theorem commandCycle_reject_frame {s : State} {i : Instr} (ap : Volume → Volume) (h : ¬ GateLetsThrough s i) :
    TurnedAway s (s.commandCycle i ap) := by
  have g := gateAnswer_of_reject (s := s) (i := i) (by simpa using mt (gateAnswer_accept_iff s i).1 h)
  rw [commandCycle_of_reject ap h]
  refine ⟨?_, ?_, ?_, ?_, ?_, endCycle_quiet ?_ ?_ ?_ ?_ ?_ ?_⟩ <;>
    simp [State.rejected, g, TransientCleared, VolumeKept, DisplayKept, NoEvent]

/-- What a dropped word leaves. -/
theorem dropCycle_frame (s : State) : TurnedAway s s.dropCycle := by
  unfold State.dropCycle
  refine ⟨?_, ?_, ?_, ?_, ?_, endCycle_quiet ?_ ?_ ?_ ?_ ?_ ?_⟩ <;>
    simp [TransientCleared, VolumeKept, DisplayKept, NoEvent]

/-! ### One step -/

theorem fetch_eq_some {s : State} {w : Word} : s.fetch = some w ↔ InDoneCycle s ∧ s.frame = w := by
  unfold State.fetch InDoneCycle
  split <;> simp_all

theorem fetch_eq_none {s : State} : s.fetch = none ↔ ¬ InDoneCycle s := by
  unfold State.fetch InDoneCycle
  split <;> simp_all

theorem step_of_rst {s : State} (hc : s.cfg.legal = true) (h : s.input.rst = true) :
    step s = .next s.resetCycle := by
  simp [step, hc, h]

theorem step_of_unrec {s : State} {r : Reject} (hr : Runs s) (hd : InDoneCycle s)
    (h : decode s.cfg s.frame = .error r) : step s = .next s.dropCycle := by
  simp [step, hr.1, hr.2, fetch_eq_some.2 ⟨hd, rfl⟩, h]

theorem step_of_command {s : State} {i : Instr} (hr : Runs s) (hd : InDoneCycle s)
    (h : decode s.cfg s.frame = .ok i) : step s = .next (s.commandCycle i (volApply i)) := by
  simp [step, hr.1, hr.2, fetch_eq_some.2 ⟨hd, rfl⟩, h, exec_eq]

theorem step_of_quiet {s : State} (hr : Runs s) (hd : ¬ InDoneCycle s) : step s = s.sequencerCycle := by
  simp [step, hr.1, hr.2, fetch_eq_none.2 hd]

/-- What the sequencer writes in a cycle that is not a Done cycle, before the rules of every cycle: `none` where a
lookup has no value. -/
def State.sequencerWrites (s : State) : Option State :=
  match s.st with
  | .idle => some s.idleCycle
  | .leadLo => some (s.measure s.leadLoEnd)
  | .leadHi => some (s.measure s.leadHiEnd)
  | .bitLo => some (s.measure s.bitLoEnd)
  | .bitHi => some (s.measure s.bitHiEnd)
  | .stopLo => some s.holdPhase
  | .outSel => some s.outSelCycle
  | .outOpc => some s.outOpcCycle
  | .outData => (attenuationFor s.cfg s.cur.toNat).map s.outDataCycle
  | .outTens => (segmentsFor s.cfg s.tens.toNat true).map s.outTensCycle
  | .outOnes => (segmentsFor s.cfg s.ones.toNat false).map s.outOnesCycle

theorem sequencerCycle_eq (s : State) :
    s.sequencerCycle =
      match s.sequencerWrites with
      | some t => .next (s.endCycle false t)
      | none => .refused .lookupOutOfRange := by
  unfold State.sequencerCycle State.sequencerWrites withLookup
  cases s.st <;> simp only <;> split <;> simp_all

/-- The registers no sequencer cycle touches. -/
theorem sequencerWrites_keeps {s t : State} (h : s.sequencerWrites = some t) :
    t.cfg = s.cfg ∧ t.inputs = s.inputs ∧ t.freeCount = s.freeCount ∧ t.cycle = s.cycle ∧ t.last = s.last ∧
      t.rcount = s.rcount ∧ VolumeKept s t := by
  unfold State.sequencerWrites at h
  split at h
  all_goals simp only [Option.some.injEq, Option.map_eq_some_iff] at h
  all_goals obtain ⟨b, -, rfl⟩ := h
  all_goals simp only [State.idleCycle, State.measure, State.holdPhase, State.leadLoEnd, State.leadHiEnd,
    State.bitLoEnd, State.bitHiEnd, State.outSelCycle, State.outOpcCycle, State.outDataCycle, State.outTensCycle,
    State.outOnesCycle]
  all_goals (repeat' split)
  all_goals simp [VolumeKept]

/-- A cycle that is not a Done cycle, once its sequencer writes are known. -/
theorem step_next_of_writes {s u : State} (hr : Runs s) (hd : ¬ InDoneCycle s) (hw : s.sequencerWrites = some u) :
    step s = .next (s.endCycle false u) := by
  rw [step_of_quiet hr hd, sequencerCycle_eq, hw]

/-- The background of such a cycle, and the volume registers it keeps. -/
theorem quiet_of_writes {s u : State} (hw : s.sequencerWrites = some u) :
    QuietBackground s (s.endCycle false u) ∧ VolumeKept s (s.endCycle false u) := by
  obtain ⟨h1, h2, h3, h4, h5, h6, h7⟩ := sequencerWrites_keeps hw
  refine ⟨endCycle_quiet h1 h2 h3 h4 h5 h6, ?_⟩
  simp only [VolumeKept, State.endCycle_cur, State.endCycle_tens, State.endCycle_ones, State.endCycle_savCur,
    State.endCycle_savTens, State.endCycle_savOnes]
  exact h7

/-- Everything one step can do. -/
theorem step_cases {s t : State} (h : step s = .next t) :
    s.cfg.legal = true ∧
    ((s.input.rst = true ∧ t = s.resetCycle) ∨
     (s.input.rst = false ∧ InDoneCycle s ∧
        ((∃ r, decode s.cfg s.frame = .error r ∧ t = s.dropCycle) ∨
         (∃ i, decode s.cfg s.frame = .ok i ∧ t = s.commandCycle i (volApply i)))) ∨
     (s.input.rst = false ∧ ¬ InDoneCycle s ∧ ∃ u, s.sequencerWrites = some u ∧ t = s.endCycle false u)) := by
  by_cases hc : s.cfg.legal = true
  · refine ⟨hc, ?_⟩
    cases hr : s.input.rst with
    | true => rw [step_of_rst hc hr] at h; exact .inl ⟨rfl, by cases h; rfl⟩
    | false =>
      right
      by_cases hd : InDoneCycle s
      · left
        refine ⟨rfl, hd, ?_⟩
        cases hdec : decode s.cfg s.frame with
        | error r => rw [step_of_unrec ⟨hc, hr⟩ hd hdec] at h; exact .inl ⟨r, rfl, by cases h; rfl⟩
        | ok i => rw [step_of_command ⟨hc, hr⟩ hd hdec] at h; exact .inr ⟨i, rfl, by cases h; rfl⟩
      · right
        refine ⟨rfl, hd, ?_⟩
        rw [step_of_quiet ⟨hc, hr⟩ hd, sequencerCycle_eq] at h
        cases hw : s.sequencerWrites with
        | none => simp [hw] at h
        | some u => simp only [hw, Host.Outcome.next.injEq] at h; exact ⟨u, rfl, h.symm⟩
  · simp [step, hc] at h

/-! ### The silent fall-backs -/

/-- When an accepted command changes nothing, and its cause then. -/
theorem noOpCause_iff (s : State) (i : Instr) (k : Cause) :
    s.noOpCause i = some k ↔
      (i = .volUp ∧ s.cur = 99 ∧ k = .satHigh) ∨ (i = .volDown ∧ s.cur = 0 ∧ k = .satLow) ∨
      (i = .mute ∧ (s.cur = 0 ∧ s.savCur = 0 ∧ s.savTens = 0 ∧ s.savOnes = 0) ∧ k = .muteSilent) := by
  cases i <;>
    simp only [State.noOpCause, volMax, Option.ite_none_right_eq_some, Option.some.injEq, ← BitVec.toNat_inj] <;>
    simp [eq_comm]

/-- When a recognised command has a cause, and which. -/
theorem commandCause_iff {s : State} {i : Instr} {k : Cause} :
    s.commandCause i = some k ↔
      (GateLetsThrough s i ∧ s.noOpCause i = some k) ∨ (s.gap < s.cfg.tGap ∧ k = .gateMinGap) ∨
      (s.cfg.tGap ≤ s.gap ∧ s.gap < s.cfg.tRepeat ∧ s.last = some i ∧ ¬ (s.rcount = 5 ∧ i ≠ .mute) ∧
        k = .gateRepeatWait) := by
  unfold State.commandCause
  by_cases g : GateLetsThrough s i
  · rw [if_pos ((gateAnswer_accept_iff s i).2 g)]
    constructor
    · intro h; exact .inl ⟨g, h⟩
    · rintro (⟨-, h⟩ | ⟨h, -⟩ | ⟨h1, h2, h3, h4, -⟩)
      · exact h
      · have := g.1; omega
      · rcases g.2 with h | h | h
        · exact absurd h3 h
        · omega
        · exact absurd h h4
  · rw [if_neg (mt (gateAnswer_accept_iff s i).1 g)]
    by_cases h : s.gap < s.cfg.tGap
    · rw [if_pos h]
      constructor
      · intro e; cases e; exact .inr (.inl ⟨h, rfl⟩)
      · rintro (⟨h', -⟩ | ⟨-, rfl⟩ | ⟨h', -⟩)
        · exact absurd h' g
        · rfl
        · omega
    · rw [if_neg h]
      have h1 : s.cfg.tGap ≤ s.gap := by omega
      constructor
      · intro e; cases e
        refine .inr (.inr ⟨h1, ?_, ?_, ?_, rfl⟩)
        · by_contra h3; exact g ⟨h1, .inr (.inl (by omega))⟩
        · by_contra h3; exact g ⟨h1, .inl h3⟩
        · intro h3; exact g ⟨h1, .inr (.inr h3)⟩
      · rintro (⟨h', -⟩ | ⟨h', -⟩ | ⟨_, _, _, _, rfl⟩)
        · exact absurd h' g
        · omega
        · rfl

/-- Everything a named cause says of its cycle (R201). -/
theorem cause_cases {s : State} {k : Cause} (h : s.cause = some k) :
    s.input.rst = false ∧
    ((∃ i, InDoneCycle s ∧ decode s.cfg s.frame = .ok i ∧ s.commandCause i = some k) ∨
     (∃ r, InDoneCycle s ∧ decode s.cfg s.frame = .error r ∧ k = .dropped r) ∨
     (¬ InDoneCycle s ∧ s.continues = true ∧ s.cfg.pulseCeil ≤ s.pcnt + 1 ∧ k = .timeout s.st) ∨
     (¬ InDoneCycle s ∧ s.st.level = none ∧ s.st ≠ .idle ∧ s.lineEdge = true ∧ k = .missedFrame)) := by
  unfold State.cause at h
  split at h
  · cases h
  · rename_i hr
    refine ⟨by simpa using hr, ?_⟩
    split at h
    · rename_i w hw
      obtain ⟨hd, rfl⟩ := fetch_eq_some.1 hw
      split at h
      · rename_i i hi; exact .inl ⟨i, hd, hi, h⟩
      · rename_i r hr; exact .inr (.inl ⟨r, hd, hr, by simpa using h.symm⟩)
    · rename_i hw
      have hd := fetch_eq_none.1 hw
      split at h
      · split at h
        · rename_i hc; exact .inr (.inr (.inl ⟨hd, hc.1, hc.2, by simpa using h.symm⟩))
        · cases h
      · rename_i hl
        split at h
        · rename_i hc; exact .inr (.inr (.inr ⟨hd, hl, hc.1, hc.2, by simpa using h.symm⟩))
        · cases h

theorem cause_of_rst {s : State} (h : s.input.rst = true) : s.cause = none := by
  simp [State.cause, h]

/-- A Done cycle whose frame decodes has the command's cause. -/
theorem cause_of_accepted {s : State} {i : Instr} (hr : s.input.rst = false) (hd : InDoneCycle s)
    (hi : decode s.cfg s.frame = .ok i) : s.cause = s.commandCause i := by
  unfold State.cause
  rw [hr, fetch_eq_some.2 ⟨hd, rfl⟩]
  simp [hi]

/-- A Done cycle whose frame decodes to nothing drops it under the decoder's reason. -/
theorem cause_of_dropped {s : State} {r : Reject} (hr : s.input.rst = false) (hd : InDoneCycle s)
    (hi : decode s.cfg s.frame = .error r) : s.cause = some (.dropped r) := by
  unfold State.cause
  rw [hr, fetch_eq_some.2 ⟨hd, rfl⟩]
  simp [hi]

/-- In a pulse state the cause is the timeout, when the pulse reaches the ceiling. -/
theorem cause_of_pulse {s : State} {b : Bool} (hr : s.input.rst = false) (hd : ¬ InDoneCycle s)
    (hb : s.st.level = some b) :
    s.cause = if s.continues ∧ s.cfg.pulseCeil ≤ s.pcnt + 1 then some (.timeout s.st) else none := by
  unfold State.cause
  rw [hr, fetch_eq_none.2 hd]
  simp [hb]

/-- In a state that measures no pulse the cause is the missed frame, when the line moves outside IDLE. -/
theorem cause_of_still {s : State} (hr : s.input.rst = false) (hd : ¬ InDoneCycle s) (hb : s.st.level = none) :
    s.cause = if s.st ≠ .idle ∧ s.lineEdge then some .missedFrame else none := by
  unfold State.cause
  rw [hr, fetch_eq_none.2 hd]
  simp [hb]

theorem lineEdge_iff (s : State) : s.lineEdge = true ↔ s.cycle ≠ 0 ∧ s.irQ ≠ s.input.irIn := by
  simp [State.lineEdge]

/-! ### Runs of several steps -/

theorem run_next_of (M : Host.Core) {k : Nat} {s t : M.State} (h : M.step s = .next t) :
    M.run (k + 1) s = M.run k t := by
  simp [Host.Core.run, h]

/-- The first step of a run of the block. -/
theorem run_succ {k : Nat} {s t : State} (h : step s = .next t) :
    Sys2Proof.core.run (k + 1) s = Sys2Proof.core.run k t :=
  run_next_of Sys2Proof.core h

end Sys2Proof.Machine
end

