-- ==== Sys2Proof/Laws/PerInstr.lean ====
section
/-! SUPPORT. Statements made per instruction: the shape of its encoding. -/

namespace Sys2Proof.Laws

/-- The four fields of an instruction's word under any configuration (R74): the address twice, the command code, and
its complement. -/
def EncodingShape.Statement (i : Instr) : Prop :=
  ∀ c : Config, addr0 (encode c i) = c.addr ∧ addr1 (encode c i) = c.addr ∧ cmdByte (encode c i) = i.code c ∧
    chkByte (encode c i) = ~~~(i.code c)

theorem EncodingShape.volUp : EncodingShape.Statement .volUp := fun _ => fields_wordOfBytes _ _ _ _

theorem EncodingShape.volDown : EncodingShape.Statement .volDown := fun _ => fields_wordOfBytes _ _ _ _

theorem EncodingShape.mute : EncodingShape.Statement .mute := fun _ => fields_wordOfBytes _ _ _ _

end Sys2Proof.Laws
end

