-- ==== Sys2Proof/Tests/Slice0.lean ====
section
/-! SUPPORT. Tests of the model on small states, with expected values from spec/95_test_vectors.md or worked out by
hand from the rule named, and a witness for the hypotheses of every statement that has any. -/

namespace Sys2Proof.Tests

open Sys2Proof.Machine

/-! ### Helpers -/

/-- A sample of the line at a level, with no strobe and no acknowledge. -/
abbrev sampleOf (level : Bool) : Input := ⟨false, level, false, false⟩

/-- A sample at the idle level with a strobe. -/
abbrev strobe : Input := ⟨false, true, true, false⟩

/-- A sample at the idle level with the acknowledge. -/
abbrev acked : Input := ⟨false, true, false, true⟩

/-- The block in the state `q` about to read one sample, everything else as after reset. -/
abbrev inState (q : Machine.Seq) (x : Input) : State := { State.reset with st := q, inputs := [x] }

/-- A Done cycle with a word in `frame`, and the gate's registers. -/
abbrev doneWith (w : Word) (last : Option Instr) (rcount : BitVec 3) (gap : Nat) : State :=
  { inState .stopLo (sampleOf true) with
    frame := w, nbits := 32, pcnt := 20, lead := 160, last := last, rcount := rcount, gap := gap }

/-- The same with the volume registers `(cur, tens, ones | sav_cur, sav_tens, sav_ones)`. -/
abbrev withVol (s : State) (cur : BitVec 7) (tens ones : BitVec 4) (sc : BitVec 7) (st so : BitVec 4) : State :=
  { s with cur := cur, tens := tens, ones := ones, savCur := sc, savTens := st, savOnes := so }

/-- What a next state holds; `none` where there is no next state. -/
def got {α : Type} (o : Host.Outcome State Fault Refusal) (f : State → α) : Option α :=
  match o with
  | .next t => some (f t)
  | .fault _ => none
  | .refused _ => none

/-! ### Configurations and well-formedness (R7) -/

theorem test_refcfg_is_legal : Config.refcfg.legal = true := by decide

theorem test_k1_ceiling_below_two : { Config.refcfg with pulseCeil := 1 }.legal = false := by decide
theorem test_k1_ceiling_above_width : { Config.refcfg with pulseCeil := 513 }.legal = false := by decide
theorem test_k2_idle_not_below_repeat : { Config.refcfg with tIdle := 250 }.legal = false := by decide
theorem test_k2_gap_ceiling_above_width : { Config.refcfg with gapCeil := 1024 }.legal = false := by decide
theorem test_k3_two_equal_codes : { Config.refcfg with cmdMute := 0x07 }.legal = false := by decide
theorem test_k4_short_table : { Config.refcfg with attenLut := [0, 255] }.legal = false := by decide
theorem test_k4_last_entry : { Config.refcfg with attenLut := List.replicate 100 0 }.legal = false := by decide
theorem test_k4_decreasing :
    { Config.refcfg with attenLut := Config.refAttenLut.set 50 0 }.legal = false := by decide
theorem test_k5_short_table : { Config.refcfg with segLut := [0x3F] }.legal = false := by decide
theorem test_k5_blank_equals_zero : { Config.refcfg with segBlank := 0x3F }.legal = false := by decide

theorem test_instruction_ill_formed :
    Instr.wellFormed { Config.refcfg with cmdMute := 0x07 } .mute = false ∧
    Instr.wellFormed { Config.refcfg with cmdMute := 0x07 } .volUp = false ∧
    Instr.wellFormed { Config.refcfg with cmdDown := 0x0F } .volDown = false := by decide

/-! ### Decoding words written out bit by bit from R74 and R120, most significant bit first -/

theorem test_decode_vol_up : decode Config.refcfg 0b11111000000001110000011100000111#32 = .ok .volUp := by decide
theorem test_decode_vol_down : decode Config.refcfg 0b11110100000010110000011100000111#32 = .ok .volDown := by decide
theorem test_decode_mute : decode Config.refcfg 0b11110000000011110000011100000111#32 = .ok .mute := by decide

/-- V-VAL rows 4 to 11. -/
theorem test_decode_unrec :
    decode Config.refcfg 0xF8070706 = .error .badAddr0 ∧ decode Config.refcfg 0xF807F807 = .error .badAddr1 ∧
    decode Config.refcfg 0xF9070707 = .error .badCheck ∧ decode Config.refcfg 0xF8060707 = .error .badCheck ∧
    decode Config.refcfg 0x08F70707 = .error .unknownCmd ∧ decode Config.refcfg 0xFD020707 = .error .unknownCmd ∧
    decode Config.refcfg 0 = .error .badAddr0 ∧ decode Config.refcfg 0xFFFFFFFF = .error .badAddr0 := by decide

theorem test_bytes_not_a_frame : decodeBytes Config.refcfg [0x07, 0x07, 0x07] = .error .notAFrame := by decide

/-- The words of the table, from R74's REFCFG column. -/
theorem test_encode :
    encode Config.refcfg .volUp = 0xF8070707 ∧ encode Config.refcfg .volDown = 0xF40B0707 ∧
    encode Config.refcfg .mute = 0xF00F0707 := by decide

/-- The reset state runs a word placed where the next step takes its instruction. -/
theorem test_first_instruction :
    step (State.reset.withFetchWord 32 0xF8070707) = exec .volUp (State.reset.withFetchWord 32 0xF8070707) ∧
    step (State.reset.withFetchWord 32 0xF40B0707) = exec .volDown (State.reset.withFetchWord 32 0xF40B0707) ∧
    step (State.reset.withFetchWord 32 0xF00F0707) = exec .mute (State.reset.withFetchWord 32 0xF00F0707) :=
  ⟨rfl, rfl, rfl⟩

/-! ### One step each -/

/-- V-THR. -/
theorem test_threshold :
    [0, 1, 3, 4, 7, 8, 9, 15, 16, 24, 60, 159, 160, 161, 255, 256, 499, 511].map thr =
      [0, 0, 0, 0, 0, 1, 1, 2, 3, 4, 11, 29, 30, 30, 47, 48, 93, 95] := by decide

/-- V-DEC-7: a fourth bit after 1, 1, 1. -/
theorem test_word_assembly : shiftIn 0xE0000000 false = 0x70000000 ∧ shiftIn 0xE0000000 true = 0xF0000000 := by decide

/-- V-GATE rows 2, 4, 5, 13, 16, 10 and 24. -/
theorem test_gate :
    gate Config.refcfg none 0 49 .volUp = ⟨false, none, 0⟩ ∧
    gate Config.refcfg (some .volUp) 1 49 .volDown = ⟨false, some .volUp, 1⟩ ∧
    gate Config.refcfg (some .volUp) 1 50 .volDown = ⟨true, some .volDown, 1⟩ ∧
    gate Config.refcfg (some .volUp) 5 50 .volUp = ⟨true, some .volUp, 5⟩ ∧
    gate Config.refcfg (some .mute) 5 60 .mute = ⟨false, some .mute, 5⟩ ∧
    gate Config.refcfg (some .volUp) 4 250 .volUp = ⟨true, some .volUp, 5⟩ ∧
    gate Config.refcfg (some .volUp) 4 60 .volUp = ⟨false, some .volUp, 4⟩ := by decide

/-- V-VOL row 3: a carry into the tens. -/
theorem test_vol_up_carries :
    got (exec .volUp (withVol (doneWith 0xF8070707 none 0 50) 9 0 9 0 0 0)) State.volume =
      some ⟨10, 1, 0, 0, 0, 0⟩ := by decide

/-- V-VOL row 7: saturation, and the output sequence still starts (V-OUT-4). -/
theorem test_vol_up_saturates :
    got (exec .volUp (withVol (doneWith 0xF8070707 none 0 50) 99 9 9 0 0 0)) (fun t => (t.volume, t.st)) =
      some (⟨99, 9, 9, 0, 0, 0⟩, .outSel) := by decide

/-- V-VOL row 12: a borrow from the tens. -/
theorem test_vol_down_borrows :
    got (exec .volDown (withVol (doneWith 0xF40B0707 none 0 50) 20 2 0 0 0 0)) State.volume =
      some ⟨19, 1, 9, 0, 0, 0⟩ := by decide

/-- V-VOL row 15: at zero nothing moves, the saved triple included. -/
theorem test_vol_down_at_zero :
    got (exec .volDown (withVol (doneWith 0xF40B0707 none 0 50) 0 0 0 15 1 5)) State.volume =
      some ⟨0, 0, 0, 15, 1, 5⟩ := by decide

/-- V-VOL row 22: engaging overwrites an older saved triple. -/
theorem test_mute_engages :
    got (exec .mute (withVol (doneWith 0xF00F0707 none 0 50) 1 0 1 15 1 5)) State.volume =
      some ⟨0, 0, 0, 1, 0, 1⟩ := by decide

/-- V-VOL row 18: releasing. -/
theorem test_mute_releases :
    got (exec .mute (withVol (doneWith 0xF00F0707 none 0 50) 0 0 0 15 1 5)) State.volume =
      some ⟨15, 1, 5, 0, 0, 0⟩ := by decide

/-- V-LUT. -/
theorem test_lookups :
    [0, 1, 14, 15, 16, 50, 98, 99].map (attenuationFor Config.refcfg) =
      [some 0, some 1, some 6, some 6, some 7, some 66, some 250, some 255] ∧
    segmentsFor Config.refcfg 0 true = some 0x00 ∧ segmentsFor Config.refcfg 0 false = some 0x3F ∧
    segmentsFor Config.refcfg 9 true = some 0x6F ∧ segmentsFor Config.refcfg 5 false = some 0x6D := by decide

/-- V-TMR rows 2 and 3. -/
theorem test_timer :
    got (step { inState .leadLo (sampleOf false) with pcnt := 498 }) (fun t => (t.st, t.pcnt)) = some (.leadLo, 499) ∧
    got (step { inState .leadLo (sampleOf false) with pcnt := 499 }) (fun t => (t.st, t.pcnt)) = some (.idle, 0) := by
  decide

/-- V-CLR rows 1 and 4. -/
theorem test_idle_clear :
    got (step { inState .idle (sampleOf true) with last := some .volUp, rcount := 5, gap := 76 })
      (fun t => (t.last, t.rcount)) = some (none, 0) ∧
    got (step { inState .bitLo (sampleOf false) with last := some .volUp, rcount := 5, gap := 90, pcnt := 1 })
      (fun t => (t.last, t.rcount)) = some (some .volUp, 5) := by decide

/-- V-OUT-1, cycle 1: the opcode byte. -/
theorem test_out_opc :
    got (step { inState .outOpc acked with cycle := 1 }) (fun t => (t.st, t.trace)) =
      some (.outData, [(1, .attByte 0x11)]) := by decide

/-! ### Witnesses: states and operands that meet the hypotheses of each statement -/

/-- `ValidateFollowsItsTests`: one word for each of its seven answers. -/
theorem witness_validate :
    (0xF8070706#32).toNat % 256 ≠ Config.refcfg.addr.toNat ∧
    ((0xF807F807#32).toNat % 256 = Config.refcfg.addr.toNat ∧
      (0xF807F807#32).toNat / 256 % 256 ≠ Config.refcfg.addr.toNat) ∧
    ((0xF9070707#32).toNat / 256 % 256 = Config.refcfg.addr.toNat ∧
      (0xF9070707#32).toNat / 16777216 ≠ 255 - (0xF9070707#32).toNat / 65536 % 256) ∧
    ((0xF8070707#32).toNat / 65536 % 256 = Config.refcfg.cmdUp.toNat ∧
      (0xF8070707#32).toNat / 16777216 = 255 - (0xF8070707#32).toNat / 65536 % 256) ∧
    (0xF40B0707#32).toNat / 65536 % 256 = Config.refcfg.cmdDown.toNat ∧
    (0xF00F0707#32).toNat / 65536 % 256 = Config.refcfg.cmdMute.toNat ∧
    (decode Config.refcfg 0xFD020707 = .error .unknownCmd) := by decide

/-- `DecodeEncodeAgree`. -/
theorem witness_well_formed :
    Instr.wellFormed Config.refcfg .volUp = true ∧ Instr.wellFormed Config.refcfg .volDown = true ∧
    Instr.wellFormed Config.refcfg .mute = true := by decide

/-- The samples of a short frame for `FrameOnTheLineIsReceived`: V-DEC-1's phases, sent from `IDLE`. -/
abbrev shortFrame : List Input := (frameX 0xF8070707 8 1 1 2 1 1).map sampleOf

/-- `FrameOnTheLineIsReceived`: V-DEC-1's phases. -/
theorem witness_frame :
    let s : State := { inState .idle (sampleOf true) with irQ := true, inputs := shortFrame }
    s.cfg.legal = true ∧ s.st = .idle ∧ s.irQ = true ∧ TransientCleared s ∧ s.inputs = shortFrame ++ [] ∧
    shortFrame.map Input.irIn = frameX 0xF8070707 8 1 1 2 1 1 ∧ (∀ x ∈ shortFrame, x.rst = false) ∧
    (8 < s.cfg.pulseCeil) ∧ 1 ≤ (8 / 4 + 8 / 8) / 2 ∧ (8 / 4 + 8 / 8) / 2 < 2 := by
  refine ⟨by decide, rfl, rfl, by decide, (List.append_nil _).symm, by decide, by decide, by decide, by decide,
    by decide⟩

/-- `FrameLengthOnTheLine`: `VOL_UP`'s word has 14 one bits, and its reference frame 2100 samples (R79's example). -/
theorem witness_frame_length : 14 = ((List.range 32).filter fun k => (0xF8070707#32).getLsbD k).length := by decide

/-- A reset in the middle of a bit. -/
abbrev resetMidBit : State := { inState .bitLo ⟨true, false, true, true⟩ with pcnt := 7, gap := 3 }

/-- `ResetLoadsEveryRegister`, `ResetRestartsTheCycleCount`, and the first row of `StateTransitionTable`. -/
theorem witness_reset : resetMidBit.cfg.legal = true ∧ resetMidBit.input.rst = true ∧ ∃ t, step resetMidBit = .next t :=
  ⟨by decide, by decide, _, rfl⟩

/-- `ResetMeetsInvariant` and `InvariantStatesNeverStop`. -/
theorem witness_reset_invariant : Inv State.reset := by decide

/-- A state in the middle of a frame that meets the invariant. -/
abbrev midFrame : State :=
  { inState .bitLo (sampleOf true) with
    irQ := false, pcnt := 31, lead := 160, frame := 0xE0000000, nbits := 3, last := some .mute, rcount := 5,
    gap := 1023, cur := 0, savCur := 15, savTens := 1, savOnes := 5 }

/-- `StepKeepsInvariant`: a state in the middle of a frame, with a step to take; and the hypotheses of
`ConfigurationNeverWritten` and `PreviousSampleIsKept`. -/
theorem witness_mid_frame : Inv midFrame ∧ Runs midFrame ∧ ∃ t, step midFrame = .next t :=
  ⟨by decide, by decide, _, rfl⟩

/-- `ConfigurationNeverWritten`, its second clause. -/
theorem witness_exec : ∃ t, exec .mute State.reset = .next t := ⟨_, rfl⟩

/-- `IllegalConfigurationRefused`: `test_refcfg_is_legal` meets the five constraints; this one breaks the first. -/
theorem witness_illegal : ({ State.reset with cfg := { Config.refcfg with pulseCeil := 1 } } : State).cfg.legal = false := by
  decide

/-- `StepRunsDecodedCommand`, for each instruction. -/
theorem witness_command :
    let s := fun w => doneWith w none 0 0
    (Runs (s 0xF8070707) ∧ InDoneCycle (s 0xF8070707) ∧ decode Config.refcfg (s 0xF8070707).frame = .ok .volUp) ∧
    (Runs (s 0xF40B0707) ∧ InDoneCycle (s 0xF40B0707) ∧ decode Config.refcfg (s 0xF40B0707).frame = .ok .volDown) ∧
    (Runs (s 0xF00F0707) ∧ InDoneCycle (s 0xF00F0707) ∧ decode Config.refcfg (s 0xF00F0707).frame = .ok .mute) := by
  decide

/-- `UnrecWordIsDropped`. -/
theorem witness_unrec :
    let s := doneWith 0xF9070707 none 0 0
    Runs s ∧ InDoneCycle s ∧ decode s.cfg s.frame = .error .badCheck := by decide

/-- `ContinueCountsTheSample` in each measuring state, one sample below the ceiling. -/
theorem witness_continue :
    ∀ q ∈ [Machine.Seq.leadLo, .leadHi, .bitLo, .bitHi, .stopLo],
      let s : State := { inState q (sampleOf (q == .leadHi || q == .bitHi)) with pcnt := 498 }
      Runs s ∧ Measuring s.st ∧ s.input.irIn = (if s.st = .leadHi ∨ s.st = .bitHi then true else false) ∧
      s.pcnt + 1 < s.cfg.pulseCeil := by decide

/-- `TimeoutAborts` in each measuring state, at the ceiling. -/
theorem witness_timeout :
    ∀ q ∈ [Machine.Seq.leadLo, .leadHi, .bitLo, .bitHi, .stopLo],
      let s : State := { inState q (sampleOf (q == .leadHi || q == .bitHi)) with pcnt := 499 }
      Runs s ∧ Measuring s.st ∧ s.input.irIn = (if s.st = .leadHi ∨ s.st = .bitHi then true else false) ∧
      s.cfg.pulseCeil ≤ s.pcnt + 1 := by decide

/-- `FallingEdgeStartsLeader`: with an edge, with none after a low sample, and with a high sample. -/
theorem witness_idle :
    let a : State := { inState .idle (sampleOf false) with irQ := true }
    let b : State := inState .idle (sampleOf false)
    let c : State := { inState .idle (sampleOf true) with irQ := true }
    (Runs a ∧ a.st = .idle ∧ a.irQ = true ∧ a.input.irIn = false) ∧
    (Runs b ∧ b.st = .idle ∧ b.irQ = false) ∧ (Runs c ∧ c.st = .idle ∧ c.input.irIn = true) := by decide

/-- `LeaderLowIsRecorded` (V-TMR row 4) and `LeaderHighBeginsBits`. -/
theorem witness_leader :
    let a : State := { inState .leadLo (sampleOf true) with pcnt := 499 }
    let b : State := { inState .leadHi (sampleOf false) with pcnt := 80 }
    (Runs a ∧ a.st = .leadLo ∧ a.input.irIn = true) ∧ (Runs b ∧ b.st = .leadHi ∧ b.input.irIn = false) := by decide

/-- `ThresholdFormula`: its bound 7, and two leaders in order. -/
theorem witness_threshold : (7 : Nat) ≤ 7 ∧ (160 : Nat) ≤ 161 := by decide

/-- `BitIsClassifiedAndShiftedIn`: the last bit, on both sides of the threshold (V-THR). -/
theorem witness_bit :
    ∀ m ∈ [30, 31],
      let s : State := { inState .bitLo (sampleOf true) with pcnt := m, lead := 160, nbits := 31 }
      Runs s ∧ s.st = .bitLo ∧ s.input.irIn = true ∧ s.nbits.toNat ≤ 31 := by decide

/-- `BitHighLeadsOn`: after the last bit, and before it. -/
theorem witness_bit_high :
    ∀ n ∈ [31, 32],
      let s : State := { inState .bitHi (sampleOf false) with pcnt := 20, nbits := n }
      Runs s ∧ s.st = .bitHi ∧ s.input.irIn = false := by decide

/-- `LineIgnoredDuringOutput` in each output state: the two samples differ in the line only. -/
theorem witness_line_ignored :
    (acked.rst = false ∧ (⟨false, false, false, true⟩ : Input).rst = false ∧
      acked.gtick = (⟨false, false, false, true⟩ : Input).gtick ∧
      acked.attAck = (⟨false, false, false, true⟩ : Input).attAck) ∧
    (∃ t, step (inState .outSel acked) = .next t) ∧ (∃ t, step (inState .outOpc acked) = .next t) ∧
    (∃ t, step (inState .outData acked) = .next t) ∧ (∃ t, step (inState .outTens acked) = .next t) ∧
    (∃ t, step (inState .outOnes acked) = .next t) :=
  ⟨by decide, ⟨_, rfl⟩, ⟨_, rfl⟩, ⟨_, rfl⟩, ⟨_, rfl⟩, ⟨_, rfl⟩⟩

/-- `TimeBasesAreIndependent`: outside a Done cycle and in one. -/
theorem witness_time_bases :
    (Runs (inState .idle strobe) ∧ ¬ InDoneCycle (inState .idle strobe) ∧
      ∃ t, step (inState .idle strobe) = .next t) ∧
    (Runs (doneWith 0xF8070707 none 0 50) ∧ InDoneCycle (doneWith 0xF8070707 none 0 50) ∧
      ∃ t, step (doneWith 0xF8070707 none 0 50) = .next t) :=
  ⟨⟨by decide, by decide, _, rfl⟩, by decide, by decide, _, rfl⟩

/-- `VolUpCompletes`: below a carry, at a carry, at 98 and at 99. -/
theorem witness_vol_up :
    let s := doneWith 0xF8070707 none 0 50
    (VolumeInv (withVol s 8 0 8 0 0 0) ∧ GateLetsThrough (withVol s 8 0 8 0 0 0) .volUp) ∧
    (VolumeInv (withVol s 9 0 9 0 0 0) ∧ GateLetsThrough (withVol s 9 0 9 0 0 0) .volUp) ∧
    (VolumeInv (withVol s 98 9 8 0 0 0) ∧ GateLetsThrough (withVol s 98 9 8 0 0 0) .volUp) ∧
    (VolumeInv (withVol s 99 9 9 0 0 0) ∧ GateLetsThrough (withVol s 99 9 9 0 0 0) .volUp) := by decide

/-- `VolDownCompletes`: at 0, at 1, and at a borrow; accepted as a repeat at the threshold. -/
theorem witness_vol_down :
    let s := doneWith 0xF40B0707 (some .volDown) 1 250
    (VolumeInv (withVol s 0 0 0 0 0 0) ∧ GateLetsThrough (withVol s 0 0 0 0 0 0) .volDown) ∧
    (VolumeInv (withVol s 1 0 1 0 0 0) ∧ GateLetsThrough (withVol s 1 0 1 0 0 0) .volDown) ∧
    (VolumeInv (withVol s 10 1 0 0 0 0) ∧ GateLetsThrough (withVol s 10 1 0 0 0 0) .volDown) := by decide

/-- `MuteCompletes`: engaging and releasing. -/
theorem witness_mute :
    let s := doneWith 0xF00F0707 (some .volUp) 5 50
    GateLetsThrough (withVol s 1 0 1 0 0 0) .mute ∧ GateLetsThrough (withVol s 0 0 0 1 0 1) .mute := by decide

/-- `MinimumGapRejects`: one strobe below the minimum gap. -/
theorem witness_min_gap : (doneWith 0xF8070707 none 0 49).gap < Config.refcfg.tGap := by decide

/-- `SameCommandAgain`: accepted at the repeat threshold, accepted on the fast path at the minimum gap, and turned
away one strobe below the threshold, for `MUTE` at the cap too (V-GATE rows 9, 13, 8, 17). -/
theorem witness_same_command :
    let ok := fun (s : State) (i : Instr) => s.cfg.tRepeat ≤ s.gap ∨ (s.rcount = 5 ∧ i ≠ .mute)
    let a := doneWith 0xF8070707 (some .volUp) 1 250
    let b := doneWith 0xF8070707 (some .volUp) 5 50
    let c := doneWith 0xF8070707 (some .volUp) 1 249
    let d := doneWith 0xF00F0707 (some .mute) 5 249
    (a.cfg.tGap ≤ a.gap ∧ a.last = some .volUp ∧ ok a .volUp) ∧
    (b.cfg.tGap ≤ b.gap ∧ b.last = some .volUp ∧ ok b .volUp) ∧
    (c.cfg.tGap ≤ c.gap ∧ c.last = some .volUp ∧ ¬ ok c .volUp) ∧
    (d.cfg.tGap ≤ d.gap ∧ d.last = some .mute ∧ ¬ ok d .mute) := by decide

/-- `DifferentCommandAccepted`: after another command, and after none (V-GATE rows 5 and 3). -/
theorem witness_different :
    let a := doneWith 0xF40B0707 (some .volUp) 1 50
    let b := doneWith 0xF8070707 none 0 50
    (a.cfg.tGap ≤ a.gap ∧ a.last ≠ some .volDown) ∧ (b.cfg.tGap ≤ b.gap ∧ b.last ≠ some .volUp) := by decide

/-- Volume 15, not muted, a `MUTE` due. -/
abbrev muteDue : State := withVol (doneWith 0xF00F0707 none 0 50) 15 1 5 0 0 0
/-- The same muted. -/
abbrev muteAgain : State := { muteDue.commandCycle .mute mute with gap := 250 }

/-- `MuteRoundTrip`: from volume 15, the second `MUTE` at the repeat threshold. -/
theorem witness_mute_round_trip :
    VolumeInv muteDue ∧ GateLetsThrough muteDue .mute ∧ exec .mute muteDue = .next (muteDue.commandCycle .mute mute) ∧
    VolumeKept (muteDue.commandCycle .mute mute) muteAgain ∧ GateLetsThrough muteAgain .mute ∧
    exec .mute muteAgain = .next (muteAgain.commandCycle .mute mute) :=
  ⟨by decide, by decide, rfl, by decide, by decide, rfl⟩

/-- Muted at 15, a `VOL_UP` due (V-VOL row 8). -/
abbrev upWhileMuted : State := withVol (doneWith 0xF8070707 (some .mute) 1 50) 0 0 0 15 1 5
/-- The same after that `VOL_UP`, a `MUTE` due. -/
abbrev upThenMute : State := { upWhileMuted.commandCycle .volUp volUp with gap := 50 }

/-- `VolUpWhileMutedThenMute`, both clauses. -/
theorem witness_up_while_muted :
    (VolumeInv upWhileMuted ∧ upWhileMuted.cur = 0 ∧ GateLetsThrough upWhileMuted .volUp ∧
      exec .volUp upWhileMuted = .next (upWhileMuted.commandCycle .volUp volUp) ∧
      VolumeKept (upWhileMuted.commandCycle .volUp volUp) upThenMute ∧ GateLetsThrough upThenMute .mute ∧
      exec .mute upThenMute = .next (upThenMute.commandCycle .mute mute)) ∧
    (GateLetsThrough upThenMute .mute ∧ ∃ t, exec .mute upThenMute = .next t) :=
  ⟨⟨by decide, rfl, by decide, rfl, by decide, by decide, rfl⟩, by decide, _, rfl⟩

/-- No command is accepted where the block is not in a Done cycle. -/
theorem no_accept {s : State} (h : ¬ InDoneCycle s) : ¬ ∃ i, Accepts s i := fun ⟨_, hi⟩ => h hi.1

/-- `GapAfterEveryCycle`: an acceptance; a strobe at the ceiling; no strobe. -/
theorem witness_gap :
    (Runs (doneWith 0xF8070707 none 0 50) ∧ (∃ t, step (doneWith 0xF8070707 none 0 50) = .next t) ∧
      ∃ i, Accepts (doneWith 0xF8070707 none 0 50) i) ∧
    (Runs { inState .idle strobe with gap := 1023 } ∧
      (∃ t, step { inState .idle strobe with gap := 1023 } = .next t) ∧
      ¬ ∃ i, Accepts { inState .idle strobe with gap := 1023 } i) :=
  ⟨⟨by decide, ⟨_, rfl⟩, .volUp, by decide⟩, by decide, ⟨_, rfl⟩, no_accept (by decide)⟩

/-- `IdleClearAfterEveryCycle`: due, and not due by one strobe (V-CLR rows 1 and 2). Each state also meets the
hypotheses of `VolumeWrittenOnlyWhenAccepted` and `DisplaysWrittenOnlyInTheirStates`. -/
theorem witness_idle_clear :
    let s := fun g : Nat =>
      ({ inState .idle (sampleOf true) with last := some .volUp, rcount := 5, gap := g } : State)
    (Runs (s 76) ∧ (∃ t, step (s 76) = .next t) ∧ (¬ ∃ i, Accepts (s 76) i) ∧ IdleClearDue (s 76)) ∧
    (Runs (s 75) ∧ (∃ t, step (s 75) = .next t) ∧ (¬ ∃ i, Accepts (s 75) i) ∧ ¬ IdleClearDue (s 75)) :=
  ⟨⟨by decide, ⟨_, rfl⟩, no_accept (by decide), by decide⟩,
    by decide, ⟨_, rfl⟩, no_accept (by decide), by decide⟩

/-- `VolumeWrittenOnlyWhenAccepted`: a command turned away. -/
theorem witness_rejected :
    let s := doneWith 0xF8070707 none 0 49
    Runs s ∧ (∃ t, step s = .next t) ∧ ¬ ∃ i, Accepts s i :=
  ⟨by decide, ⟨_, rfl⟩, fun ⟨_, hi⟩ => absurd hi.2.2.1 (by decide)⟩

/-- `DisplaysWrittenOnlyInTheirStates`: each display state keeps the other display. -/
theorem witness_displays :
    (Runs (inState .outTens (sampleOf true)) ∧ (inState .outTens (sampleOf true)).st ≠ .outOnes ∧
      ∃ t, step (inState .outTens (sampleOf true)) = .next t) ∧
    (Runs (inState .outOnes (sampleOf true)) ∧ (inState .outOnes (sampleOf true)).st ≠ .outTens ∧
      ∃ t, step (inState .outOnes (sampleOf true)) = .next t) :=
  ⟨⟨by decide, by decide, _, rfl⟩, by decide, by decide, _, rfl⟩

/-- `PortsFollowTheState`: `OUT_OPC`, and a state that offers no byte. -/
theorem witness_ports :
    (inState .outOpc acked).st = .outOpc ∧ (inState .outData acked).st = .outData ∧
    ((inState .idle acked).st ≠ .outOpc ∧ (inState .idle acked).st ≠ .outData) := by decide

/-- `EventsAreTheHandshakes`, one state per clause. -/
theorem witness_events :
    (Runs (inState .outData acked) ∧ (∃ t, step (inState .outData acked) = .next t) ∧
      (inState .outData acked).attValid = true ∧ (inState .outData acked).input.attAck = true) ∧
    (Runs (inState .outTens acked) ∧ (∃ t, step (inState .outTens acked) = .next t) ∧
      (inState .outTens acked).tensWe = true) ∧
    (Runs (inState .outOnes acked) ∧ (∃ t, step (inState .outOnes acked) = .next t) ∧
      (inState .outOnes acked).onesWe = true) ∧
    (Runs (inState .outOpc strobe) ∧ (∃ t, step (inState .outOpc strobe) = .next t) ∧
      ¬ ((inState .outOpc strobe).attValid = true ∧ (inState .outOpc strobe).input.attAck = true) ∧
      (inState .outOpc strobe).tensWe = false ∧ (inState .outOpc strobe).onesWe = false) :=
  ⟨⟨by decide, ⟨_, rfl⟩, by decide, by decide⟩, ⟨by decide, ⟨_, rfl⟩, by decide⟩, ⟨by decide, ⟨_, rfl⟩, by decide⟩,
    by decide, ⟨_, rfl⟩, by decide, by decide, by decide⟩

/-- `AttenuationIsATaper` and `SegmentsOfEveryDigit`: the configuration, the ends of their ranges, two volumes in
order. -/
theorem witness_lookups :
    Config.refcfg.legal = true ∧ (99 : Nat) ≤ 99 ∧ 99 < 100 ∧ attenuationFor Config.refcfg 98 = some 250 ∧
    attenuationFor Config.refcfg 99 = some 255 ∧ (1 : Nat) ≤ 1 ∧ (9 : Nat) ≤ 9 ∧ 9 < 10 := by decide

/-- `LookupOutsideTableRefused`: one past the end of each table. -/
theorem witness_lookup_refused :
    let a : State := { inState .outData (sampleOf true) with cur := 100 }
    let b : State := { inState .outTens (sampleOf true) with tens := 10 }
    let c : State := { inState .outOnes (sampleOf true) with ones := 10 }
    (Runs a ∧ a.st = .outData ∧ 99 < a.cur.toNat) ∧ (Runs b ∧ b.st = .outTens ∧ 9 < b.tens.toNat) ∧
    (Runs c ∧ c.st = .outOnes ∧ 9 < c.ones.toNat) := by decide

/-- `OutSelLastsOneCycle`, and `OutOpcWaitsForAck` acknowledged and not. -/
theorem witness_out_opc :
    (Runs (inState .outSel acked) ∧ (inState .outSel acked).st = .outSel) ∧
    (Runs (inState .outOpc acked) ∧ (inState .outOpc acked).st = .outOpc) ∧
    (Runs (inState .outOpc strobe) ∧ (inState .outOpc strobe).st = .outOpc) := by decide

/-- `OutDataWaitsForAck`: volume 99 acknowledged, volume 0 not. -/
theorem witness_out_data :
    let a : State := withVol (inState .outData acked) 99 9 9 0 0 0
    let b : State := inState .outData strobe
    (Runs a ∧ a.st = .outData ∧ a.cfg.attenLut[a.cur.toNat]? = some 255) ∧
    (Runs b ∧ b.st = .outData ∧ b.cfg.attenLut[b.cur.toNat]? = some 0) := by decide

/-- `OutTensWritesThePattern` with the digit 0 and 9, `OutOnesWritesThePattern` with 0 and 9. -/
theorem witness_out_digits :
    let z : State := inState .outTens strobe
    let n : State := withVol (inState .outTens strobe) 99 9 9 0 0 0
    let zo : State := inState .outOnes strobe
    let no : State := withVol (inState .outOnes strobe) 99 9 9 0 0 0
    (Runs z ∧ z.st = .outTens ∧
      (if z.tens = 0 then 0x00 = z.cfg.segBlank else z.cfg.segLut[z.tens.toNat]? = some 0x00)) ∧
    (Runs n ∧ n.st = .outTens ∧
      (if n.tens = 0 then 0x6F = n.cfg.segBlank else n.cfg.segLut[n.tens.toNat]? = some 0x6F)) ∧
    (Runs zo ∧ zo.st = .outOnes ∧ zo.cfg.segLut[zo.ones.toNat]? = some 0x3F) ∧
    (Runs no ∧ no.st = .outOnes ∧ no.cfg.segLut[no.ones.toNat]? = some 0x6F) := by decide

/-- `OutputSequenceRuns`: the opcode byte acknowledged at once, the data byte after one cycle. -/
theorem witness_output_sequence :
    let s : State := { withVol (inState .outSel acked) 15 1 5 0 0 0 with
      inputs := strobe :: ([] ++ acked :: ([strobe] ++ acked :: strobe :: strobe :: [])) }
    s.cfg.legal = true ∧ VolumeInv s ∧ s.st = .outSel ∧
    s.inputs = strobe :: ([] ++ acked :: ([strobe] ++ acked :: strobe :: strobe :: [])) ∧
    (∀ x ∈ [] ++ [strobe], x.rst = false ∧ x.attAck = false) ∧
    (∀ x ∈ [strobe, acked, acked, strobe, strobe], x.rst = false) ∧ acked.attAck = true := by decide

/-- `StartUpDrivesVolumeZero`. -/
theorem witness_start_up :
    Config.refcfg.legal = true ∧ (List.replicate 5 acked).length = 5 ∧
    (∀ x ∈ List.replicate 5 acked, x.rst = false ∧ x.attAck = true) ∧ Config.refcfg.segLut[0]? = some 0x3F := by decide

/-- `StateTransitionTable`: a step to take in every state, its clauses' sides covered by the witnesses above. -/
theorem witness_transitions :
    ∀ q ∈ [Machine.Seq.idle, .leadLo, .leadHi, .bitLo, .bitHi, .stopLo, .outSel, .outOpc, .outData, .outTens,
        .outOnes],
      ∀ b ∈ [true, false], Runs (inState q (sampleOf b)) ∧ (got (step (inState q (sampleOf b))) (fun _ => ())).isSome := by
  decide

/-- `FallBacksKeepTheVolume` and `FallBackDestinations`: a state for each of the 15 rows of R201. -/
theorem witness_fall_backs :
    (∀ q ∈ [Machine.Seq.leadLo, .leadHi, .bitLo, .bitHi, .stopLo],
      State.cause { inState q (sampleOf (q == .leadHi || q == .bitHi)) with pcnt := 499 } = some (.timeout q)) ∧
    (doneWith 0xF8070706 none 0 0).cause = some (.dropped .badAddr0) ∧
    (doneWith 0xF807F807 none 0 0).cause = some (.dropped .badAddr1) ∧
    (doneWith 0xF9070707 none 0 0).cause = some (.dropped .badCheck) ∧
    (doneWith 0xFD020707 none 0 0).cause = some (.dropped .unknownCmd) ∧
    (doneWith 0xF8070707 none 0 49).cause = some .gateMinGap ∧
    (doneWith 0xF8070707 (some .volUp) 1 249).cause = some .gateRepeatWait ∧
    (doneWith 0xF00F0707 (some .mute) 5 249).cause = some .gateRepeatWait ∧
    (withVol (doneWith 0xF8070707 none 0 50) 99 9 9 0 0 0).cause = some .satHigh ∧
    (doneWith 0xF40B0707 none 0 50).cause = some .satLow ∧
    (doneWith 0xF00F0707 none 0 50).cause = some .muteSilent ∧
    State.cause { inState .outOpc (sampleOf true) with cycle := 1 } = some .missedFrame := by decide

/-- No edge, and so no `MISSED_FRAME`, in cycle 0, whatever the line does (R41, D6); nor with a steady line later; nor
any cause in a reset cycle. -/
theorem test_no_cause :
    (inState .outSel (sampleOf true)).cause = none ∧ (inState .outSel (sampleOf false)).cause = none ∧
    State.cause { inState .outOpc (sampleOf true) with cycle := 1, irQ := true } = none ∧
    resetMidBit.cause = none := by decide

/-- One state of each kind is in an ordinary cycle with the volume invariant and has a step to take. -/
theorem witness_fall_backs_step :
    ∀ s ∈ [{ inState .bitHi (sampleOf true) with pcnt := 499 }, doneWith 0xF9070707 none 0 0,
        doneWith 0xF8070707 none 0 49, doneWith 0xF8070707 (some .volUp) 1 249,
        withVol (doneWith 0xF8070707 none 0 50) 99 9 9 0 0 0, doneWith 0xF40B0707 none 0 50,
        doneWith 0xF00F0707 none 0 50, { inState .outOpc (sampleOf true) with cycle := 1 }],
      Runs s ∧ VolumeInv s ∧ (got (step s) (fun _ => ())).isSome := by decide

end Sys2Proof.Tests
end

section
/-! SUPPORT. The statements of 00_scope.md: the configuration is the same after every step (R6, R40), and which
configurations are legal (R7). -/

namespace Sys2Proof

/-! ### The constraints of R7, one by one -/

theorem Config.k1_iff (c : Config) : c.k1 = true ↔ 2 ≤ c.pulseCeil ∧ c.pulseCeil ≤ 2 ^ c.pulseW := by
  simp only [Config.k1, decide_eq_true_eq]

theorem Config.k2_iff (c : Config) :
    c.k2 = true ↔
      0 < c.tGap ∧ c.tGap < c.tIdle ∧ c.tIdle < c.tRepeat ∧ c.tRepeat ≤ c.gapCeil ∧ c.gapCeil < 2 ^ c.gapW := by
  simp only [Config.k2, decide_eq_true_eq]

theorem Config.k3_iff (c : Config) :
    c.k3 = true ↔ c.cmdUp ≠ c.cmdDown ∧ c.cmdUp ≠ c.cmdMute ∧ c.cmdDown ≠ c.cmdMute := by
  simp only [Config.k3, decide_eq_true_eq]

/-- The converse of `nonDecreasing_getElem?`; comparing neighbouring entries is enough. -/
theorem nonDecreasing_of_adjacent : ∀ {l : List Byte},
    (∀ (i : Nat) (a b : Byte), l[i]? = some a → l[i + 1]? = some b → a.toNat ≤ b.toNat) → nonDecreasing l = true
  | [], _ => rfl
  | [_], _ => rfl
  | x :: y :: l, h => by
    have head : x ≤ y := BitVec.le_def.2 (h 0 x y rfl rfl)
    have tail : nonDecreasing (y :: l) = true :=
      nonDecreasing_of_adjacent fun i a b ha hb => h (i + 1) a b ha hb
    simp only [nonDecreasing, head, tail, decide_true, Bool.and_self]

/-- The bound on the index loses nothing: a table of 100 entries has no neighbours past the entries 98 and 99. -/
theorem Config.k4_iff (c : Config) :
    c.k4 = true ↔
      c.attenLut.length = 100 ∧ c.attenLut[0]? = some 0 ∧ c.attenLut[99]? = some 255 ∧
        ∀ (i : Nat) (a b : Byte), i < 99 → c.attenLut[i]? = some a → c.attenLut[i + 1]? = some b →
          a.toNat ≤ b.toNat := by
  simp only [Config.k4, Bool.and_eq_true, decide_eq_true_eq, and_assoc]
  refine and_congr_right fun hlen => and_congr_right fun _ => and_congr_right fun _ => ⟨?_, ?_⟩
  · intro hmono i a b _ ha hb
    exact Machine.nonDecreasing_getElem? hmono (Nat.le_succ i) ha hb
  · intro hadj
    refine nonDecreasing_of_adjacent fun i a b ha hb => hadj i a b ?_ ha hb
    obtain ⟨hi, -⟩ := List.getElem?_eq_some_iff.1 hb
    omega

theorem Config.k5_iff (c : Config) :
    c.k5 = true ↔ c.segLut.length = 10 ∧ c.segLut[0]? ≠ some c.segBlank := by
  simp only [Config.k5, decide_eq_true_eq]

/-- Legality is K1 to K5, each in numbers (R7). -/
theorem Config.legal_iff (c : Config) :
    c.legal = true ↔
      (2 ≤ c.pulseCeil ∧ c.pulseCeil ≤ 2 ^ c.pulseW) ∧
      (0 < c.tGap ∧ c.tGap < c.tIdle ∧ c.tIdle < c.tRepeat ∧ c.tRepeat ≤ c.gapCeil ∧ c.gapCeil < 2 ^ c.gapW) ∧
      (c.cmdUp ≠ c.cmdDown ∧ c.cmdUp ≠ c.cmdMute ∧ c.cmdDown ≠ c.cmdMute) ∧
      (c.attenLut.length = 100 ∧ c.attenLut[0]? = some 0 ∧ c.attenLut[99]? = some 255 ∧
        ∀ (i : Nat) (a b : Byte), i < 99 → c.attenLut[i]? = some a → c.attenLut[i + 1]? = some b →
          a.toNat ≤ b.toNat) ∧
      (c.segLut.length = 10 ∧ c.segLut[0]? ≠ some c.segBlank) := by
  rw [← c.k1_iff, ← c.k2_iff, ← c.k3_iff, ← c.k4_iff, ← c.k5_iff]
  simp only [Config.legal, Bool.and_eq_true, and_assoc]

namespace Machine

/-- The refusal comes before the reset is looked at (assumption log entry 10). -/
theorem step_of_illegal {s : State} (h : s.cfg.legal = false) : step s = .refused .illegalConfig := by
  simp [step, h]

/-! ### No cycle writes a parameter -/

theorem QuietBackground.cfg_eq {s t : State} (h : QuietBackground s t) : t.cfg = s.cfg := by
  obtain ⟨⟨hcfg, -⟩, -⟩ := h
  exact hcfg

theorem TurnedAway.cfg_eq {s t : State} (h : TurnedAway s t) : t.cfg = s.cfg := by
  obtain ⟨-, -, -, -, -, hquiet⟩ := h
  exact hquiet.cfg_eq

theorem AcceptedFrame.cfg_eq {s t : State} {i : Instr} (h : AcceptedFrame s t i) : t.cfg = s.cfg := by
  obtain ⟨-, -, -, -, -, -, -, ⟨hcfg, -⟩, -⟩ := h
  exact hcfg

/-- The Done cycle of a command keeps the configuration whatever the volume rule and the gate's answer. -/
@[simp] theorem State.commandCycle_cfg (s : State) (i : Instr) (ap : Volume → Volume) :
    (s.commandCycle i ap).cfg = s.cfg := by
  by_cases hgate : GateLetsThrough s i
  · obtain ⟨hframe, -⟩ := commandCycle_accept_frame ap hgate
    exact hframe.cfg_eq
  · exact (commandCycle_reject_frame ap hgate).cfg_eq

theorem exec_keeps_cfg {i : Instr} {s t : State} (h : exec i s = .next t) : t.cfg = s.cfg := by
  rw [exec_eq, Host.Outcome.next.injEq] at h
  rw [← h, State.commandCycle_cfg]

theorem step_keeps_cfg {s t : State} (h : step s = .next t) : t.cfg = s.cfg := by
  obtain ⟨-, ⟨-, rfl⟩ | ⟨-, -, ⟨r, -, rfl⟩ | ⟨i, -, rfl⟩⟩ | ⟨-, -, u, hwrites, rfl⟩⟩ := step_cases h
  · exact s.resetCycle_cfg
  · exact (dropCycle_frame s).cfg_eq
  · exact s.commandCycle_cfg i (volApply i)
  · obtain ⟨hquiet, -⟩ := quiet_of_writes hwrites
    exact hquiet.cfg_eq

/-! ### The statements -/

/-- Settles O11, from the case analysis of a step and the two ways a command's Done cycle can end. -/
theorem configurationNeverWritten : Obligations.ConfigurationNeverWritten :=
  ⟨fun _ _ h => step_keeps_cfg h, fun _ _ _ h => exec_keeps_cfg h⟩

/-- Settles O12, constraint by constraint; the refusal is the outermost test of `step`. -/
theorem illegalConfigurationRefused : Obligations.IllegalConfigurationRefused :=
  ⟨Config.legal_iff, fun _ h => step_of_illegal h⟩

end Machine
end Sys2Proof
end

section
/-! SUPPORT. The statements of 10_state.md: reset values and output ports (R41, R42), which cycles write the volume and
display registers (R32, R33), the transitions of `st` (R23), and the invariant (R34 to R36). -/

namespace Sys2Proof.Machine

/-! ### What a cycle can do

A run's cycle is an acceptance, a Done cycle that accepts nothing, or one move of the sequencer. -/

/-- One sequencer cycle, row by row: the writes of each rule under the rule's own condition. -/
inductive SequencerMove (s : State) : State → Prop
  /-- R91. -/
  | count (continues : s.continues = true) (below : s.pcnt + 1 < s.cfg.pulseCeil) :
      SequencerMove s { s with pcnt := s.pcnt + 1 }
  /-- R93. -/
  | timeout (continues : s.continues = true) (ceiling : s.cfg.pulseCeil ≤ s.pcnt + 1) : SequencerMove s s.abort
  /-- R101, on a falling edge. -/
  | fallingEdge (st : s.st = .idle) (edge : s.irQ = true ∧ s.input.irIn = false) :
      SequencerMove s { s with st := .leadLo, pcnt := 1 }
  /-- R101, without one. -/
  | idleWait (st : s.st = .idle) (noEdge : ¬ (s.irQ = true ∧ s.input.irIn = false)) : SequencerMove s s
  /-- R102. -/
  | leadLoEnd (st : s.st = .leadLo) (level : s.input.irIn = true) : SequencerMove s s.leadLoEnd
  /-- R103. -/
  | leadHiEnd (st : s.st = .leadHi) (level : s.input.irIn = false) : SequencerMove s s.leadHiEnd
  /-- R105. -/
  | bitLoEnd (st : s.st = .bitLo) (level : s.input.irIn = true) : SequencerMove s s.bitLoEnd
  /-- R106. -/
  | bitHiEnd (st : s.st = .bitHi) (level : s.input.irIn = false) : SequencerMove s s.bitHiEnd
  /-- R176. -/
  | select (st : s.st = .outSel) : SequencerMove s s.outSelCycle
  /-- R177, acknowledged. -/
  | opcodeTaken (st : s.st = .outOpc) (ack : s.input.attAck = true) :
      SequencerMove s { s.memWrite .att s.cfg.wiperOpcode with st := .outData }
  /-- R177, not acknowledged. -/
  | opcodeWait (st : s.st = .outOpc) (noAck : s.input.attAck = false) : SequencerMove s s
  /-- R178, acknowledged. -/
  | dataTaken (b : Byte) (st : s.st = .outData) (ack : s.input.attAck = true) :
      SequencerMove s { s.memWrite .att b with st := .outTens }
  /-- R178, not acknowledged. -/
  | dataWait (st : s.st = .outData) (noAck : s.input.attAck = false) : SequencerMove s s
  /-- R179. -/
  | tensWritten (b : Byte) (st : s.st = .outTens) : SequencerMove s (s.outTensCycle b)
  /-- R180. -/
  | onesWritten (b : Byte) (st : s.st = .outOnes) : SequencerMove s (s.outOnesCycle b)

theorem holdPhase_move {s : State} (hcont : s.continues = true) : SequencerMove s s.holdPhase := by
  unfold State.holdPhase
  split_ifs with hbelow
  · exact .count hcont hbelow
  · exact .timeout hcont (by omega)

theorem measure_move {s e : State} (hend : s.continues = false → SequencerMove s e) :
    SequencerMove s (s.measure e) := by
  unfold State.measure
  split_ifs with hcont
  · exact holdPhase_move hcont
  · exact hend (Bool.eq_false_iff.2 hcont)

theorem idleCycle_move {s : State} (hst : s.st = .idle) : SequencerMove s s.idleCycle := by
  unfold State.idleCycle
  split_ifs with hedge
  · exact .fallingEdge hst (by simpa using hedge)
  · exact .idleWait hst (by simpa using hedge)

theorem outOpcCycle_move {s : State} (hst : s.st = .outOpc) : SequencerMove s s.outOpcCycle := by
  unfold State.outOpcCycle
  split_ifs with hack
  · exact .opcodeTaken hst hack
  · exact .opcodeWait hst (Bool.eq_false_iff.2 hack)

theorem outDataCycle_move {s : State} (b : Byte) (hst : s.st = .outData) : SequencerMove s (s.outDataCycle b) := by
  unfold State.outDataCycle
  split_ifs with hack
  · exact .dataTaken b hst hack
  · exact .dataWait hst (Bool.eq_false_iff.2 hack)

/-- A phase ends with a sample of the other level (R92). -/
theorem irIn_of_phaseEnd {s : State} {b : Bool} (hlevel : s.st.level = some (!b)) (hend : s.continues = false) :
    s.input.irIn = b := by
  have hne : (!b) ≠ s.input.irIn := by
    simpa only [State.continues, hlevel, Option.some_beq_some, beq_eq_false_iff_ne] using hend
  cases b <;> simpa using hne.symm

/-- Outside the Done cycle, whatever the sequencer writes is one of its moves. -/
theorem sequencerWrites_move {s u : State} (hdone : ¬ InDoneCycle s) (h : s.sequencerWrites = some u) :
    SequencerMove s u := by
  unfold State.sequencerWrites at h
  cases hst : s.st <;> simp only [hst, Option.some.injEq, Option.map_eq_some_iff] at h
  case idle => exact h ▸ idleCycle_move hst
  case leadLo => exact h ▸ measure_move fun hend => .leadLoEnd hst (irIn_of_phaseEnd (by rw [hst]; rfl) hend)
  case leadHi => exact h ▸ measure_move fun hend => .leadHiEnd hst (irIn_of_phaseEnd (by rw [hst]; rfl) hend)
  case bitLo => exact h ▸ measure_move fun hend => .bitLoEnd hst (irIn_of_phaseEnd (by rw [hst]; rfl) hend)
  case bitHi => exact h ▸ measure_move fun hend => .bitHiEnd hst (irIn_of_phaseEnd (by rw [hst]; rfl) hend)
  case stopLo =>
    have hlow : s.input.irIn = false := Bool.eq_false_iff.2 fun hhigh => hdone ⟨hst, hhigh⟩
    exact h ▸ holdPhase_move ((continues_iff s).2 (by simp [hst, hlow, Measuring]))
  case outSel => exact h ▸ .select hst
  case outOpc => exact h ▸ outOpcCycle_move hst
  case outData => obtain ⟨b, -, rfl⟩ := h; exact outDataCycle_move b hst
  case outTens => obtain ⟨b, -, rfl⟩ := h; exact .tensWritten b hst
  case outOnes => obtain ⟨b, -, rfl⟩ := h; exact .onesWritten b hst

/-- Every cycle without a reset: an acceptance, a Done cycle that accepts nothing, or a move of the sequencer. -/
theorem runs_step_cases {s t : State} (hrst : s.input.rst = false) (h : step s = .next t) :
    (∃ i, Accepts s i ∧ t = s.commandCycle i (volApply i)) ∨
    (InDoneCycle s ∧ (¬ ∃ i, Accepts s i) ∧ TurnedAway s t) ∨
    (¬ InDoneCycle s ∧ ∃ u, s.sequencerWrites = some u ∧ SequencerMove s u ∧ t = s.endCycle false u) := by
  obtain ⟨-, ⟨hrst', -⟩ | ⟨-, hdone, ⟨r, hdec, rfl⟩ | ⟨i, hdec, rfl⟩⟩ | ⟨-, hdone, u, hw, rfl⟩⟩ := step_cases h
  · simp [hrst] at hrst'
  · refine .inr (.inl ⟨hdone, ?_, dropCycle_frame s⟩)
    rintro ⟨i, -, hok, -⟩
    simp [hdec] at hok
  · by_cases hgate : GateLetsThrough s i
    · exact .inl ⟨i, ⟨hdone, hdec, hgate⟩, rfl⟩
    · refine .inr (.inl ⟨hdone, ?_, commandCycle_reject_frame _ hgate⟩)
      rintro ⟨j, -, hok, hj⟩
      cases hdec.symm.trans hok
      exact hgate hj
  · exact .inr (.inr ⟨hdone, u, hw, sequencerWrites_move hdone hw, rfl⟩)

/-! ### The volume and display registers -/

/-- Settles O36: a Done cycle that accepts nothing is a `TurnedAway`, and no sequencer cycle writes the volume. -/
theorem volumeWrittenOnlyWhenAccepted : Obligations.VolumeWrittenOnlyWhenAccepted := by
  rintro s t ⟨-, hrst⟩ h hnone
  obtain ⟨i, hacc, -⟩ | ⟨-, -, -, -, hvol, -⟩ | ⟨-, u, hw, -, rfl⟩ := runs_step_cases hrst h
  · exact absurd ⟨i, hacc⟩ hnone
  · exact hvol
  · exact (quiet_of_writes hw).2

theorem SequencerMove.display {s u : State} (h : SequencerMove s u) :
    (s.st ≠ .outTens → u.segTens = s.segTens) ∧ (s.st ≠ .outOnes → u.segOnes = s.segOnes) := by
  cases h with
  | tensWritten b hst => exact ⟨fun hne => absurd hst hne, fun _ => rfl⟩
  | onesWritten b hst => exact ⟨fun _ => rfl, fun hne => absurd hst hne⟩
  | _ => exact ⟨fun _ => rfl, fun _ => rfl⟩

/-- Settles O37: a Done cycle keeps both displays, accepting or not, and a move writes one in its own state only. -/
theorem displaysWrittenOnlyInTheirStates : Obligations.DisplaysWrittenOnlyInTheirStates := by
  rintro s t ⟨-, hrst⟩ h
  obtain ⟨i, ⟨-, -, hgate⟩, rfl⟩ | ⟨-, -, -, -, -, ⟨htens, hones⟩, -⟩ | ⟨-, u, -, hmove, rfl⟩ :=
    runs_step_cases hrst h
  · obtain ⟨⟨-, -, -, -, -, ⟨htens, hones⟩, -⟩, -⟩ := commandCycle_accept_frame (volApply i) hgate
    exact ⟨fun _ => htens, fun _ => hones⟩
  · exact ⟨fun _ => htens, fun _ => hones⟩
  · rw [State.endCycle_segTens, State.endCycle_segOnes]
    exact hmove.display

/-! ### The transitions of `st` -/

theorem nbits_toNat_eq_frameBits (n : BitVec 6) : n.toNat = frameBits ↔ n = 32 := by
  rw [← BitVec.toNat_inj]
  rfl

/-- Settles O50: the rows of R23 are the reset, the two ends of a Done cycle and the moves of the sequencer; each fixes
`st`, and with the line's level or the acknowledge that leaves one row. -/
theorem stateTransitionTable : Obligations.StateTransitionTable := by
  intro s t h
  refine ⟨fun hrst => ?_, fun hrst => ?_⟩
  · obtain ⟨hlegal, -⟩ := step_cases h
    rw [step_of_rst hlegal hrst] at h
    cases h
    rfl
  obtain ⟨i, hacc, rfl⟩ | ⟨⟨hst, hlevel⟩, hnone, hidle, -⟩ | ⟨-, u, -, hmove, rfl⟩ := runs_step_cases hrst h
  · obtain ⟨⟨hst, hlevel⟩, -, hgate⟩ := id hacc
    obtain ⟨⟨hout, -⟩, -⟩ := commandCycle_accept_frame (volApply i) hgate
    have hsome : ∃ i, Accepts s i := ⟨i, hacc⟩
    simp [hst, hlevel, hout, hsome, Measuring]
  · simp [hst, hlevel, hidle, hnone, Measuring]
  · rw [State.endCycle_st]
    cases hmove with
    | count hcont hbelow =>
      obtain ⟨hm, hlevel⟩ := (continues_iff s).1 hcont
      rcases hm with hst | hst | hst | hst | hst <;> simp_all
    | timeout hcont hceil =>
      obtain ⟨hm, hlevel⟩ := (continues_iff s).1 hcont
      rcases hm with hst | hst | hst | hst | hst <;> simp_all [State.abort]
    | fallingEdge hst hedge => simp [hst, hedge, Measuring]
    | idleWait hst hno => simp [hst, hno, Measuring]
    | leadLoEnd hst hlevel => simp [hst, hlevel, State.leadLoEnd, Measuring]
    | leadHiEnd hst hlevel => simp [hst, hlevel, State.leadHiEnd, Measuring]
    | bitLoEnd hst hlevel => simp [hst, hlevel, State.bitLoEnd, Measuring]
    | bitHiEnd hst hlevel => simp [hst, hlevel, State.bitHiEnd, nbits_toNat_eq_frameBits, Measuring]
    | select hst => simp [hst, State.outSelCycle, Measuring]
    | opcodeTaken hst hack => simp [hst, hack, Measuring]
    | opcodeWait hst hack => simp [hst, hack, Measuring]
    | dataTaken b hst hack => simp [hst, hack, Measuring]
    | dataWait hst hack => simp [hst, hack, Measuring]
    | tensWritten b hst => simp [hst, State.outTensCycle, Measuring]
    | onesWritten b hst => simp [hst, State.outOnesCycle, Measuring]

/-! ### The volume invariant (R34) -/

/-- `tens` and `ones` are the decimal digits of `cur`, which is a volume. -/
def DigitsOf (cur : BitVec 7) (tens ones : BitVec 4) : Prop :=
  tens.toNat * 10 + ones.toNat = cur.toNat ∧ cur.toNat ≤ 99 ∧ tens.toNat ≤ 9 ∧ ones.toNat ≤ 9

/-- The digits of the current and of the saved volume are right. -/
def Volume.Wf (v : Volume) : Prop := DigitsOf v.cur v.tens v.ones ∧ DigitsOf v.savCur v.savTens v.savOnes

theorem volume_wf_iff (s : State) : s.volume.Wf ↔ VolumeInv s ∧ SavedInv s := Iff.rfl

theorem digitsOf_zero : DigitsOf 0 0 0 := by simp [DigitsOf]

theorem narrow_toNat {w n : Nat} (h : n < 2 ^ w) : (narrow w n).toNat = n := by
  rw [narrow, BitVec.toNat_ofNat, Nat.mod_eq_of_lt h]

theorem volUp_wf {v : Volume} (h : v.Wf) : (volUp v).Wf := by
  obtain ⟨hcur, hsav⟩ := h
  obtain ⟨hsum, h99, htens, hones⟩ := id hcur
  obtain ⟨-, heq⟩ | ⟨hne, hcarry, heq⟩ | ⟨hne, hno, heq⟩ := volUp_cases v
  · rw [heq]
    exact ⟨hcur, hsav⟩
  · rw [heq]
    refine ⟨?_, hsav⟩
    have hzero : (0 : BitVec 4).toNat = 0 := rfl
    simp only [DigitsOf, narrow_toNat (w := 7) (n := v.cur.toNat + 1) (by omega),
      narrow_toNat (w := 4) (n := v.tens.toNat + 1) (by omega), hzero]
    omega
  · rw [heq]
    refine ⟨?_, hsav⟩
    simp only [DigitsOf, narrow_toNat (w := 7) (n := v.cur.toNat + 1) (by omega),
      narrow_toNat (w := 4) (n := v.ones.toNat + 1) (by omega)]
    omega

theorem volDown_wf {v : Volume} (h : v.Wf) : (volDown v).Wf := by
  obtain ⟨hcur, hsav⟩ := h
  obtain ⟨hsum, h99, htens, hones⟩ := id hcur
  obtain ⟨-, heq⟩ | ⟨hne, hborrow, heq⟩ | ⟨hne, hno, heq⟩ := volDown_cases v
  · rw [heq]
    exact ⟨hcur, hsav⟩
  · rw [heq]
    refine ⟨?_, hsav⟩
    have htens' : (v.tens - 1).toNat = v.tens.toNat - 1 := by bv_omega
    have hnine : (9 : BitVec 4).toNat = 9 := rfl
    simp only [DigitsOf, narrow_toNat (w := 7) (n := v.cur.toNat - 1) (by omega), htens', hnine]
    omega
  · rw [heq]
    refine ⟨?_, hsav⟩
    simp only [DigitsOf, narrow_toNat (w := 7) (n := v.cur.toNat - 1) (by omega),
      narrow_toNat (w := 4) (n := v.ones.toNat - 1) (by omega)]
    omega

theorem mute_wf {v : Volume} (h : v.Wf) : (mute v).Wf := by
  obtain ⟨hcur, hsav⟩ := h
  obtain ⟨-, heq⟩ | ⟨-, heq⟩ := mute_cases v
  · rw [heq]
    exact ⟨digitsOf_zero, hcur⟩
  · rw [heq]
    exact ⟨hsav, digitsOf_zero⟩

theorem volApply_wf (i : Instr) {v : Volume} (h : v.Wf) : (volApply i v).Wf := by
  cases i with
  | volUp => exact volUp_wf h
  | volDown => exact volDown_wf h
  | mute => exact mute_wf h

theorem VolumeKept.volume_eq {s t : State} (h : VolumeKept s t) : t.volume = s.volume := by
  obtain ⟨h1, h2, h3, h4, h5, h6⟩ := h
  simp only [State.volume, h1, h2, h3, h4, h5, h6]

/-! ### The gate's invariant (R35) -/

theorem QuietBackground.gateInv {s t : State} (hquiet : QuietBackground s t) (h : GateInv s) : GateInv t := by
  obtain ⟨⟨hcfg, -⟩, -, ⟨hclear, hkeep⟩, hgap⟩ := hquiet
  obtain ⟨hcount, hnone, hceil⟩ := h
  have hgap' : t.gap ≤ t.cfg.gapCeil := by
    rw [hcfg, hgap]
    split_ifs <;> omega
  by_cases hdue : IdleClearDue s
  · obtain ⟨hlast, hrcount⟩ := hclear hdue
    simp [GateInv, hlast, hrcount, hgap']
  · obtain ⟨hlast, hrcount⟩ := hkeep hdue
    rw [GateInv, hlast, hrcount]
    exact ⟨hcount, hnone, hgap'⟩

theorem AcceptedFrame.gateInv {s t : State} {i : Instr} (h : AcceptedFrame s t i) : GateInv t := by
  obtain ⟨-, hlast, hcount, hgap, -⟩ := h
  have hpos : 1 ≤ t.rcount.toNat ∧ t.rcount.toNat ≤ 5 := by
    rw [hcount]
    split_ifs <;> omega
  refine ⟨hpos.2, iff_of_false (by simp [hlast]) ?_, by omega⟩
  intro hzero
  simp [hzero] at hpos

/-! ### The decoder's invariant (R36) -/

/-- Outside the measuring states nothing is left of a frame (R109), and that is all the invariant asks there. -/
theorem decoderInv_of_cleared {t : State} (hm : ¬ Measuring t.st) (h : TransientCleared t) : DecoderInv t := by
  obtain ⟨hpcnt, hlead, hframe, hnbits⟩ := id h
  refine ⟨by omega, by omega, iff_of_false (by omega) hm, by simp [hnbits], fun _ => h, fun _ => ⟨hlead, hframe, hnbits⟩,
    fun _ => ⟨hframe, hnbits⟩, fun _ => by simp [hnbits], ?_, by simp [hframe]⟩
  intro hstop
  exact absurd (by simp [hstop, Measuring]) hm

/-- A phase starts with its first sample counted; `hrows` is what the invariant asks of the single states. -/
theorem decoderInv_of_phaseStart {t : State} (hceil : 2 ≤ t.cfg.pulseCeil) (hpcnt : t.pcnt = 1)
    (hlead : t.lead ≤ t.cfg.pulseCeil - 1) (hm : Measuring t.st) (hnbits : t.nbits.toNat ≤ 32)
    (hrows : (t.st = .leadLo → t.lead = 0 ∧ t.frame = 0 ∧ t.nbits = 0) ∧
      (t.st = .leadHi → t.frame = 0 ∧ t.nbits = 0) ∧ (t.st = .bitLo → t.nbits.toNat ≤ 31) ∧
      (t.st = .stopLo → t.nbits = 32))
    (hframe : t.frame.toNat % 2 ^ (32 - t.nbits.toNat) = 0) : DecoderInv t := by
  obtain ⟨hLeadLo, hLeadHi, hBitLo, hStopLo⟩ := hrows
  exact ⟨by omega, hlead, iff_of_true (by omega) hm, hnbits, fun hnm => absurd hm hnm, hLeadLo, hLeadHi, hBitLo, hStopLo,
    hframe⟩

theorem endCycle_decoderInv {s u : State} (a : Bool) (h : DecoderInv u) : DecoderInv (s.endCycle a u) := by
  simpa only [DecoderInv, TransientCleared, State.endCycle_cfg, State.endCycle_st, State.endCycle_pcnt,
    State.endCycle_lead, State.endCycle_frame, State.endCycle_nbits] using h

/-- The low `32 - n` bits of `frame` are unfilled; a bit shifted in at the top leaves one fewer (R27, R105). -/
theorem shiftIn_unfilled {f : Word} {n : Nat} (b : Bool) (hn : n ≤ 31) (h : f.toNat % 2 ^ (32 - n) = 0) :
    (shiftIn f b).toNat % 2 ^ (32 - (n + 1)) = 0 := by
  obtain ⟨k, hk⟩ := Nat.dvd_of_mod_eq_zero h
  have hpow : 2 ^ (32 - n) = 2 * 2 ^ (32 - (n + 1)) := by
    rw [← pow_succ']
    congr 1
    omega
  have hhalf : f.toNat / 2 = 2 ^ (32 - (n + 1)) * k := by
    rw [hk, hpow, mul_assoc, Nat.mul_div_cancel_left _ two_pos]
  have htop : 2 ^ (32 - (n + 1)) ∣ if b then 2 ^ 31 else 0 := by
    split_ifs
    · exact pow_dvd_pow 2 (by omega)
    · exact dvd_zero _
  rw [shiftIn_toNat, hhalf]
  exact Nat.mod_eq_zero_of_dvd (dvd_add (Dvd.intro _ rfl) htop)

theorem SequencerMove.decoderInv {s u : State} (hmove : SequencerMove s u) (hlegal : s.cfg.legal = true)
    (h : DecoderInv s) : DecoderInv u := by
  have hceil := legal_pulseCeil hlegal
  obtain ⟨hpcnt, hlead, -, hnbits, hclear, hLeadLo, hLeadHi, hBitLo, hStopLo, hframe⟩ := id h
  cases hmove with
  | count hcont hbelow =>
    obtain ⟨hm, -⟩ := (continues_iff s).1 hcont
    exact ⟨by simp only; omega, hlead, iff_of_true (by simp) hm, hnbits, fun hnm => absurd hm hnm, hLeadLo, hLeadHi,
      hBitLo, hStopLo, hframe⟩
  | timeout hcont hreached => exact decoderInv_of_cleared (by simp [State.abort]) ⟨rfl, rfl, rfl, rfl⟩
  | fallingEdge hst hedge =>
    obtain ⟨-, hl, hf, hn⟩ := hclear (by simp [hst, Measuring])
    exact decoderInv_of_phaseStart hceil rfl hlead (by simp [Measuring]) hnbits (by simp [hl, hf, hn]) hframe
  | leadLoEnd hst hlevel =>
    exact decoderInv_of_phaseStart hceil rfl hpcnt (by simp [State.leadLoEnd, Measuring]) hnbits
      (by simp [State.leadLoEnd, hLeadLo hst]) hframe
  | leadHiEnd hst hlevel =>
    exact decoderInv_of_phaseStart hceil rfl hlead (by simp [State.leadHiEnd, Measuring]) (Nat.zero_le 32)
      (by simp [State.leadHiEnd]) (Nat.zero_mod _)
  | bitLoEnd hst hlevel =>
    have hroom := hBitLo hst
    have hcount : s.bitLoEnd.nbits.toNat = s.nbits.toNat + 1 := narrow_toNat (by omega)
    exact decoderInv_of_phaseStart hceil rfl hlead (by simp [State.bitLoEnd, Measuring]) (by omega)
      (by simp [State.bitLoEnd]) (by rw [hcount]; exact shiftIn_unfilled _ hroom hframe)
  | bitHiEnd hst hlevel =>
    by_cases hfull : s.nbits = 32
    · exact decoderInv_of_phaseStart hceil rfl hlead (by simp [State.bitHiEnd, hfull, Measuring]) hnbits
        (by simp [State.bitHiEnd, hfull]) hframe
    · have hroom := mt (nbits_toNat_eq_frameBits s.nbits).1 hfull
      have hbound : s.nbits.toNat ≤ 31 := Nat.le_of_lt_succ (lt_of_le_of_ne hnbits hroom)
      exact decoderInv_of_phaseStart hceil rfl hlead (by simp [State.bitHiEnd, hroom, Measuring]) hnbits
        (by simp [State.bitHiEnd, hroom, hbound]) hframe
  | idleWait hst hno => exact h
  | opcodeWait hst hack => exact h
  | dataWait hst hack => exact h
  | select hst => exact decoderInv_of_cleared (by simp [State.outSelCycle]) (hclear (by simp [hst]))
  | opcodeTaken hst hack => exact decoderInv_of_cleared (by simp) (hclear (by simp [hst]))
  | dataTaken b hst hack => exact decoderInv_of_cleared (by simp) (hclear (by simp [hst]))
  | tensWritten b hst => exact decoderInv_of_cleared (by simp [State.outTensCycle]) (hclear (by simp [hst]))
  | onesWritten b hst => exact decoderInv_of_cleared (by simp [State.outOnesCycle]) (hclear (by simp [hst]))

/-! ### The whole invariant -/

theorem inv_resetWith {c : Config} (h : c.legal = true) : Inv (State.resetWith c) := by
  have hvol : (State.resetWith c).volume.Wf := ⟨digitsOf_zero, digitsOf_zero⟩
  have hgate : GateInv (State.resetWith c) := ⟨Nat.zero_le 5, iff_of_true rfl rfl, Nat.zero_le _⟩
  have hdec : DecoderInv (State.resetWith c) :=
    decoderInv_of_cleared (by simp [State.resetWith]) ⟨rfl, rfl, rfl, rfl⟩
  exact ⟨h, hvol.1, hvol.2, hgate, hdec⟩

/-- Settles O8, from the reset values; REFCFG is legal. -/
theorem resetMeetsInvariant : Obligations.ResetMeetsInvariant :=
  ⟨fun _ h => inv_resetWith h, inv_resetWith (by decide)⟩

theorem TurnedAway.inv {s t : State} (hframe : TurnedAway s t) (h : Inv s) : Inv t := by
  obtain ⟨hst, hclear, hvol, -, -, hquiet⟩ := hframe
  obtain ⟨hlegal, hcur, hsav, hgate, -⟩ := h
  have hwf : t.volume.Wf := hvol.volume_eq ▸ (volume_wf_iff s).2 ⟨hcur, hsav⟩
  exact ⟨hquiet.cfg_eq ▸ hlegal, hwf.1, hwf.2, hquiet.gateInv hgate, decoderInv_of_cleared (by simp [hst]) hclear⟩

theorem accepted_inv {s : State} {i : Instr} (hgate : GateLetsThrough s i) (h : Inv s) :
    Inv (s.commandCycle i (volApply i)) := by
  obtain ⟨hframe, hvolume⟩ := commandCycle_accept_frame (volApply i) hgate
  obtain ⟨hlegal, hcur, hsav, -, -⟩ := h
  have hwf : (s.commandCycle i (volApply i)).volume.Wf :=
    hvolume ▸ volApply_wf i ((volume_wf_iff s).2 ⟨hcur, hsav⟩)
  have hdec : DecoderInv (s.commandCycle i (volApply i)) := by
    obtain ⟨hst, -, -, -, hclear, -⟩ := hframe
    exact decoderInv_of_cleared (by simp [hst]) hclear
  exact ⟨hframe.cfg_eq ▸ hlegal, hwf.1, hwf.2, hframe.gateInv, hdec⟩

theorem sequencer_inv {s u : State} (hw : s.sequencerWrites = some u) (hmove : SequencerMove s u) (h : Inv s) :
    Inv (s.endCycle false u) := by
  obtain ⟨hquiet, hvol⟩ := quiet_of_writes hw
  obtain ⟨hlegal, hcur, hsav, hgate, hdec⟩ := h
  have hwf : (s.endCycle false u).volume.Wf := hvol.volume_eq ▸ (volume_wf_iff s).2 ⟨hcur, hsav⟩
  exact ⟨hquiet.cfg_eq ▸ hlegal, hwf.1, hwf.2, hquiet.gateInv hgate,
    endCycle_decoderInv false (hmove.decoderInv hlegal hdec)⟩

/-- Settles O9: each of the four kinds of cycle keeps each part of the invariant. -/
theorem stepKeepsInvariant : Obligations.StepKeepsInvariant := by
  intro s t hinv h
  cases hrst : s.input.rst with
  | true =>
    rw [step_of_rst hinv.1 hrst] at h
    cases h
    exact inv_resetWith hinv.1
  | false =>
    obtain ⟨i, ⟨-, -, hgate⟩, rfl⟩ | ⟨-, -, hframe⟩ | ⟨-, u, hw, hmove, rfl⟩ := runs_step_cases hrst h
    · exact accepted_inv hgate hinv
    · exact hframe.inv hinv
    · exact sequencer_inv hw hmove hinv

/-! ### Reset values and output ports -/

/-- Settles O6: the reset cycle's registers are those of `State.resetWith`, which R41's table gives. -/
theorem resetLoadsEveryRegister : Obligations.ResetLoadsEveryRegister := fun s hlegal hrst =>
  ⟨s.resetCycle, step_of_rst hlegal hrst, rfl, rfl, rfl, rfl, rfl, rfl, rfl, rfl, rfl, rfl, rfl, rfl, rfl, rfl, rfl, rfl,
    rfl⟩

theorem attSelN_eq_false_iff (s : State) :
    s.attSelN = false ↔ s.st = .outSel ∨ s.st = .outOpc ∨ s.st = .outData := by
  unfold State.attSelN
  cases s.st <;> simp

theorem attValid_iff (s : State) : s.attValid = true ↔ s.st = .outOpc ∨ s.st = .outData := by
  simp [State.attValid]

theorem attByte_of_outOpc {s : State} (h : s.st = .outOpc) : s.attByte = some s.cfg.wiperOpcode := by
  simp [State.attByte, h]

theorem attByte_of_outData {s : State} (h : s.st = .outData) : s.attByte = s.cfg.attenLut[s.cur.toNat]? := by
  simp [State.attByte, h, attenuationFor_eq]

theorem attByte_of_not_offering {s : State} (hopc : s.st ≠ .outOpc) (hdata : s.st ≠ .outData) :
    s.attByte = some 0 := by
  unfold State.attByte
  split
  · exact absurd ‹_› hopc
  · exact absurd ‹_› hdata
  · rfl

theorem tensWe_iff (s : State) : s.tensWe = true ↔ s.st = .outTens := by simp [State.tensWe]

theorem onesWe_iff (s : State) : s.onesWe = true ↔ s.st = .outOnes := by simp [State.onesWe]

/-- Settles O38, port by port; the two pattern ports are the display registers themselves. -/
theorem portsFollowTheState : Obligations.PortsFollowTheState := fun s =>
  ⟨attSelN_eq_false_iff s, attValid_iff s, attByte_of_outOpc, attByte_of_outData, attByte_of_not_offering, tensWe_iff s,
    onesWe_iff s, rfl, rfl⟩

end Sys2Proof.Machine
end

section
/-! SUPPORT. The statements of 20_memory.md: a lookup outside its table refuses the cycle that needs it (R50), and the
output events of a cycle are the handshakes on its ports (R52). -/

namespace Sys2Proof.Machine

/-! ### The cycles outside the Done cycle -/

/-- Outside the Done cycle a next state is the end of a cycle over the sequencer's writes. -/
theorem writes_of_step {s t : State} (hruns : Runs s) (hdone : ¬ InDoneCycle s) (h : step s = .next t) :
    ∃ u, s.sequencerWrites = some u ∧ t = s.endCycle false u := by
  cases hw : s.sequencerWrites with
  | none => simp [step_of_quiet hruns hdone, sequencerCycle_eq, hw] at h
  | some u => exact ⟨u, rfl, Host.Outcome.next.inj (h.symm.trans (step_next_of_writes hruns hdone hw))⟩

theorem step_refused_of_no_writes {s : State} (hruns : Runs s) (hdone : ¬ InDoneCycle s)
    (hw : s.sequencerWrites = none) : step s = .refused .lookupOutOfRange := by
  rw [step_of_quiet hruns hdone, sequencerCycle_eq, hw]

theorem not_inDoneCycle_of_st {s : State} {q : Seq} (hst : s.st = q) (hq : q ≠ .stopLo) : ¬ InDoneCycle s :=
  fun ⟨hstop, _⟩ => hq (hst.symm.trans hstop)

/-! ### The sequencer's writes in the states that offer a byte or write a display -/

theorem sequencerWrites_of_outOpc {s : State} (hst : s.st = .outOpc) : s.sequencerWrites = some s.outOpcCycle := by
  simp only [State.sequencerWrites, hst]

theorem sequencerWrites_of_outData {s : State} (hst : s.st = .outData) :
    s.sequencerWrites = (attenuationFor s.cfg s.cur.toNat).map s.outDataCycle := by
  simp only [State.sequencerWrites, hst]

theorem sequencerWrites_of_outTens {s : State} (hst : s.st = .outTens) :
    s.sequencerWrites = (segmentsFor s.cfg s.tens.toNat true).map s.outTensCycle := by
  simp only [State.sequencerWrites, hst]

theorem sequencerWrites_of_outOnes {s : State} (hst : s.st = .outOnes) :
    s.sequencerWrites = (segmentsFor s.cfg s.ones.toNat false).map s.outOnesCycle := by
  simp only [State.sequencerWrites, hst]

/-! ### Lookups outside their tables (R50) -/

/-- Settles O42: in each of the three states the lookup has no value, so the sequencer has nothing to write. -/
theorem lookupOutsideTableRefused : Obligations.LookupOutsideTableRefused := by
  rintro s hruns (⟨hst, hcur⟩ | ⟨hst, htens⟩ | ⟨hst, hones⟩) <;>
    refine step_refused_of_no_writes hruns (not_inDoneCycle_of_st hst (by decide)) ?_
  · rw [sequencerWrites_of_outData hst, attenuationFor_of_gt hruns.1 hcur, Option.map_none]
  · rw [sequencerWrites_of_outTens hst, segmentsFor_of_gt hruns.1 true htens, Option.map_none]
  · rw [sequencerWrites_of_outOnes hst, segmentsFor_of_gt hruns.1 false hones, Option.map_none]

/-! ### What a cycle records (R52) -/

theorem outOpcCycle_trace_of_ack {s : State} (hack : s.input.attAck = true) :
    s.outOpcCycle.trace = s.trace ++ [(s.cycle, .attByte s.cfg.wiperOpcode)] := by
  simp [State.outOpcCycle, hack]

theorem outDataCycle_trace_of_ack {s : State} (b : Byte) (hack : s.input.attAck = true) :
    (s.outDataCycle b).trace = s.trace ++ [(s.cycle, .attByte b)] := by
  simp [State.outDataCycle, hack]

@[simp] theorem outTensCycle_trace (s : State) (b : Byte) :
    (s.outTensCycle b).trace = s.trace ++ [(s.cycle, .dispTens b)] := rfl

@[simp] theorem outOnesCycle_trace (s : State) (b : Byte) :
    (s.outOnesCycle b).trace = s.trace ++ [(s.cycle, .dispOnes b)] := rfl

/-- A byte offered and acknowledged is the one the attenuator takes (R177, R178). -/
theorem writes_trace_of_handshake {s u : State} (hvalid : s.attValid = true) (hack : s.input.attAck = true)
    (hw : s.sequencerWrites = some u) :
    ∃ v, s.attByte = some v ∧ u.trace = s.trace ++ [(s.cycle, .attByte v)] := by
  rcases (attValid_iff s).1 hvalid with hst | hst
  · rw [sequencerWrites_of_outOpc hst] at hw
    cases hw
    exact ⟨_, attByte_of_outOpc hst, outOpcCycle_trace_of_ack hack⟩
  · rw [sequencerWrites_of_outData hst] at hw
    obtain ⟨b, hlookup, rfl⟩ := Option.map_eq_some_iff.1 hw
    exact ⟨b, (attByte_of_outData hst).trans hlookup, outDataCycle_trace_of_ack b hack⟩

theorem writes_trace_of_outTens {s u : State} (hst : s.st = .outTens) (hw : s.sequencerWrites = some u) :
    ∃ v, segmentsFor s.cfg s.tens.toNat true = some v ∧ u.trace = s.trace ++ [(s.cycle, .dispTens v)] := by
  rw [sequencerWrites_of_outTens hst] at hw
  obtain ⟨b, hlookup, rfl⟩ := Option.map_eq_some_iff.1 hw
  exact ⟨b, hlookup, outTensCycle_trace s b⟩

theorem writes_trace_of_outOnes {s u : State} (hst : s.st = .outOnes) (hw : s.sequencerWrites = some u) :
    ∃ v, segmentsFor s.cfg s.ones.toNat false = some v ∧ u.trace = s.trace ++ [(s.cycle, .dispOnes v)] := by
  rw [sequencerWrites_of_outOnes hst] at hw
  obtain ⟨b, hlookup, rfl⟩ := Option.map_eq_some_iff.1 hw
  exact ⟨b, hlookup, outOnesCycle_trace s b⟩

/-- The four moves that write to an output are the only ones that record an event. -/
theorem SequencerMove.noEvent {s u : State} (h : SequencerMove s u)
    (hatt : ¬ (s.attValid = true ∧ s.input.attAck = true)) (htens : s.st ≠ .outTens) (hones : s.st ≠ .outOnes) :
    NoEvent s u := by
  cases h with
  | opcodeTaken hst hack => exact absurd ⟨(attValid_iff s).2 (.inl hst), hack⟩ hatt
  | dataTaken b hst hack => exact absurd ⟨(attValid_iff s).2 (.inr hst), hack⟩ hatt
  | tensWritten b hst => exact absurd hst htens
  | onesWritten b hst => exact absurd hst hones
  | _ => rfl

/-- A Done cycle records nothing, accepting or not; no other cycle does without a handshake or a display write. -/
theorem step_noEvent {s t : State} (hrst : s.input.rst = false) (h : step s = .next t)
    (hatt : ¬ (s.attValid = true ∧ s.input.attAck = true)) (htens : s.st ≠ .outTens) (hones : s.st ≠ .outOnes) :
    NoEvent s t := by
  obtain ⟨i, ⟨-, -, hgate⟩, rfl⟩ | ⟨-, -, -, -, -, -, hnone, -⟩ | ⟨-, u, -, hmove, rfl⟩ := runs_step_cases hrst h
  · obtain ⟨⟨-, -, -, -, -, -, hnone, -⟩, -⟩ := commandCycle_accept_frame (volApply i) hgate
    exact hnone
  · exact hnone
  · exact (State.endCycle_trace ..).trans (hmove.noEvent hatt htens hones)

/-- Settles O39: each port is high in states that are no Done cycle, whose sequencer writes record its event. -/
theorem eventsAreTheHandshakes : Obligations.EventsAreTheHandshakes := by
  intro s t hruns h
  refine ⟨fun hvalid hack => ?_, fun htens => ?_, fun hones => ?_, fun hatt htens hones => ?_⟩
  · have hdone : ¬ InDoneCycle s :=
      ((attValid_iff s).1 hvalid).elim (not_inDoneCycle_of_st · (by decide)) (not_inDoneCycle_of_st · (by decide))
    obtain ⟨u, hw, rfl⟩ := writes_of_step hruns hdone h
    rw [State.endCycle_trace]
    exact writes_trace_of_handshake hvalid hack hw
  · have hst := (tensWe_iff s).1 htens
    obtain ⟨u, hw, rfl⟩ := writes_of_step hruns (not_inDoneCycle_of_st hst (by decide)) h
    rw [State.endCycle_trace]
    exact writes_trace_of_outTens hst hw
  · have hst := (onesWe_iff s).1 hones
    obtain ⟨u, hw, rfl⟩ := writes_of_step hruns (not_inDoneCycle_of_st hst (by decide)) h
    rw [State.endCycle_trace]
    exact writes_trace_of_outOnes hst hw
  · exact step_noEvent hruns.2 h hatt (mt (tensWe_iff s).2 (Bool.eq_false_iff.1 htens))
      (mt (onesWe_iff s).2 (Bool.eq_false_iff.1 hones))

end Sys2Proof.Machine
end

section
/-! SUPPORT. The statements of 30_encoding.md: the word of an instruction and its decoding (R74, R75), the length of a
frame on the line (R79), and the reception of a frame phase by phase (R70, R72, R73, R78). -/

namespace Sys2Proof

/-! ### The command word (R74, R75) -/

/-- Settles O1, by evaluating the decoder on the eight words. -/
theorem tableWordsDecode : Obligations.TableWordsDecode := by
  unfold Obligations.TableWordsDecode
  decide

theorem encode_toNat (c : Config) (i : Instr) :
    (encode c i).toNat =
      (255 - (i.code c).toNat) * 2 ^ 24 + (i.code c).toNat * 2 ^ 16 + c.addr.toNat * 2 ^ 8 + c.addr.toNat := by
  rw [encode, wordOfBytes_toNat, BitVec.toNat_not]

/-- The converse of `decode_ok_fields`. An ill-formed instruction's code is taken by one that R121 tests earlier. -/
theorem decode_of_fields {c : Config} {w : Word} {i : Instr} (hwf : i.wellFormed c = true)
    (haddr0 : addr0 w = c.addr) (haddr1 : addr1 w = c.addr) (hcmd : cmdByte w = i.code c)
    (hchk : chkByte w = ~~~(i.code c)) : decode c w = .ok i := by
  unfold decode
  rw [if_neg (not_not.2 haddr0), if_neg (not_not.2 haddr1), if_neg (not_not.2 (by rw [hchk, hcmd])), hcmd]
  cases i with
  | volUp => simp [Instr.code]
  | volDown =>
    obtain ⟨hup, -⟩ : c.cmdDown ≠ c.cmdUp ∧ c.cmdDown ≠ c.cmdMute := by simpa [Instr.wellFormed] using hwf
    simp [Instr.code, hup]
  | mute =>
    obtain ⟨hup, hdown⟩ : c.cmdMute ≠ c.cmdUp ∧ c.cmdMute ≠ c.cmdDown := by simpa [Instr.wellFormed] using hwf
    simp [Instr.code, hup, hdown]

theorem decode_encode {c : Config} {i : Instr} (hwf : i.wellFormed c = true) : decode c (encode c i) = .ok i := by
  obtain ⟨haddr0, haddr1, hcmd, hchk⟩ := fields_wordOfBytes c.addr c.addr (i.code c) (~~~(i.code c))
  exact decode_of_fields hwf haddr0 haddr1 hcmd hchk

theorem decodeBytes_encodeBytes (c : Config) (i : Instr) : decodeBytes c (encodeBytes c i) = decode c (encode c i) :=
  rfl

/-- The four fields leave no bit of the word open, so R75 holds even of ill-formed instructions. -/
theorem eq_encode_of_decode {c : Config} {w : Word} {i : Instr} (h : decode c w = .ok i) : w = encode c i := by
  obtain ⟨haddr0, haddr1, hcmd, hchk⟩ := decode_ok_fields h
  rw [← wordOfBytes_fields w, haddr0, haddr1, hcmd, hchk, encode]

/-- Settles O3, from the fields of an assembled word in one direction and of a decoded word in the other. -/
theorem decodeEncodeAgree : Obligations.DecodeEncodeAgree := fun c i hwf =>
  ⟨encode_toNat c i, decode_encode hwf, (decodeBytes_encodeBytes c i).trans (decode_encode hwf),
    fun _ => eq_encode_of_decode⟩

/-! ### The length of a frame (R79) -/

@[simp] theorem phase_length (b : Bool) (n : Nat) : (phase b n).length = n := List.length_replicate

@[simp] theorem bitPeriod_length (l0 l1 h : Nat) (b : Bool) :
    (bitPeriod l0 l1 h b).length = (if b then l1 else l0) + h := by
  simp [bitPeriod]

/-- Every one bit lengthens its period from `l0 + h` to `l1 + h`. -/
theorem bitPeriods_length (w : Word) (l0 l1 h k n : Nat) :
    (bitPeriods w l0 l1 h k n).length =
      n * h + (List.range' k n).countP (w.getLsbD ·) * l1 +
        (n - (List.range' k n).countP (w.getLsbD ·)) * l0 := by
  induction n generalizing k with
  | zero => simp [bitPeriods]
  | succ n ih =>
    have hle : (List.range' (k + 1) n).countP (w.getLsbD ·) ≤ n := by
      simpa using List.countP_le_length (p := (w.getLsbD ·)) (l := List.range' (k + 1) n)
    rw [bitPeriods, List.length_append, bitPeriod_length, ih, List.range'_succ, List.countP_cons]
    cases w.getLsbD k with
    | true =>
      simp only [if_true, Nat.add_sub_add_right]
      ring
    | false =>
      simp only [Bool.false_eq_true, if_false, Nat.add_zero, Nat.sub_add_comm hle]
      ring

/-- Settles O5: the length is the sum over the phases, the bit periods contributing by `bitPeriods_length`. -/
theorem frameLengthOnTheLine : Obligations.FrameLengthOnTheLine := by
  rintro w ll lh l0 l1 h s n1 rfl
  rw [← List.countP_eq_length_filter, List.range_eq_range', frameX]
  simp only [List.length_append, phase_length, bitPeriods_length, frameBits]
  ring

namespace Machine

/-! ### Hearing a stretch of the line -/

/-- The registers in which the block receives a frame: the sequencer state, the last sample and the decoder's
transient registers. The bit count is taken as a number. -/
structure LineRegs where
  st : Seq
  irQ : Bool
  pcnt : Nat
  lead : Nat
  frame : Word
  nbits : Nat

def State.lineRegs (s : State) : LineRegs := ⟨s.st, s.irQ, s.pcnt, s.lead, s.frame, s.nbits.toNat⟩

@[simp] theorem endCycle_lineRegs (s t : State) (a : Bool) :
    (s.endCycle a t).lineRegs = { t.lineRegs with irQ := s.input.irIn } := by
  simp [State.lineRegs]

/-- Nothing has been applied or output, and the block is the same block. -/
def NothingApplied (s t : State) : Prop := t.cfg = s.cfg ∧ VolumeKept s t ∧ DisplayKept s t ∧ NoEvent s t

theorem NothingApplied.refl (s : State) : NothingApplied s s := by
  simp [NothingApplied, VolumeKept, DisplayKept, NoEvent]

theorem NothingApplied.trans {s t u : State} (h₁ : NothingApplied s t) (h₂ : NothingApplied t u) :
    NothingApplied s u := by
  simp_all [NothingApplied, VolumeKept, DisplayKept, NoEvent]

/-- Under the configuration `c`, a block whose line registers are `r` gets to line registers `r'` by the samples
`levels`, whatever its other registers and the other inputs are, as long as no cycle resets it; meanwhile it applies
and outputs nothing. -/
def Hears (c : Config) (r : LineRegs) (levels : List Bool) (r' : LineRegs) : Prop :=
  ∀ (s : State) (xs rest : List Input), s.cfg = c → s.cfg.legal = true → s.lineRegs = r → s.inputs = xs ++ rest →
    xs.map Input.irIn = levels → (∀ x ∈ xs, x.rst = false) →
    ∃ t, Sys2Proof.core.run xs.length s = .next t ∧ t.lineRegs = r' ∧ t.inputs = rest ∧ NothingApplied s t

theorem run_append (M : Host.Core) {j k : Nat} {s t : M.State} (h : M.run j s = .next t) :
    M.run (j + k) s = M.run k t := by
  induction j generalizing s with
  | zero =>
    cases h
    rw [Nat.zero_add]
  | succ j ih =>
    cases hstep : M.step s with
    | next u =>
      rw [run_next_of M hstep] at h
      rw [Nat.succ_add, run_next_of M hstep, ih h]
    | fault r => simp [Host.Core.run, hstep] at h
    | refused r => simp [Host.Core.run, hstep] at h

theorem Hears.nil (c : Config) (r : LineRegs) : Hears c r [] r := by
  intro s xs rest _ _ hr hin hlevels _
  cases List.map_eq_nil_iff.1 hlevels
  exact ⟨s, rfl, hr, hin, .refl s⟩

theorem Hears.append {c : Config} {r r' r'' : LineRegs} {l l' : List Bool} (h : Hears c r l r')
    (h' : Hears c r' l' r'') : Hears c r (l ++ l') r'' := by
  intro s xs rest hcfg hlegal hr hin hlevels hrst
  obtain ⟨ys, zs, rfl, hys, hzs⟩ := List.map_eq_append_iff.1 hlevels
  obtain ⟨hrstY, hrstZ⟩ := List.forall_mem_append.1 hrst
  obtain ⟨t, hrun, ht, hint, hkept⟩ := h s ys (zs ++ rest) hcfg hlegal hr (by rw [hin, List.append_assoc]) hys hrstY
  have hcfgt : t.cfg = s.cfg := hkept.1
  obtain ⟨u, hrun', hu, hinu, hkept'⟩ := h' t zs rest (hcfgt.trans hcfg) (hcfgt ▸ hlegal) ht hint hzs hrstZ
  exact ⟨u, by rw [List.length_append, run_append _ hrun, hrun'], hu, hinu, hkept.trans hkept'⟩

/-- Waiting in `IDLE` and measuring a phase, the block outputs nothing. -/
theorem nothingApplied_of_writes {s u : State} (hst : s.st = .idle ∨ Measuring s.st) (hdone : ¬ InDoneCycle s)
    (hw : s.sequencerWrites = some u) : NothingApplied s (s.endCycle false u) := by
  have hout : s.attValid = false ∧ s.st ≠ .outTens ∧ s.st ≠ .outOnes := by
    rcases hst with hst | hst | hst | hst | hst | hst <;> simp [hst, State.attValid]
  obtain ⟨hatt, htens, hones⟩ := hout
  have hmove := sequencerWrites_move hdone hw
  obtain ⟨hquiet, hvol⟩ := quiet_of_writes hw
  obtain ⟨hsegTens, hsegOnes⟩ := hmove.display
  refine ⟨hquiet.cfg_eq, hvol, ⟨?_, ?_⟩, ?_⟩
  · rw [State.endCycle_segTens, hsegTens htens]
  · rw [State.endCycle_segOnes, hsegOnes hones]
  · exact (State.endCycle_trace ..).trans (hmove.noEvent (by simp [hatt]) htens hones)

/-- One sample, from what the sequencer writes on it. -/
theorem hears_sample {c : Config} {r r' : LineRegs} {b : Bool} (hst : r.st = .idle ∨ Measuring r.st)
    (h : ∀ s : State, s.cfg = c → s.lineRegs = r → s.input.irIn = b →
      ¬ InDoneCycle s ∧ ∃ u, s.sequencerWrites = some u ∧ { u.lineRegs with irQ := b } = r') :
    Hears c r [b] r' := by
  rintro s xs rest hcfg hlegal rfl hin hlevels hrst
  obtain ⟨x, rfl, rfl⟩ := List.map_eq_singleton_iff.1 hlevels
  have hinput : s.input = x := by simp [State.input, hin]
  obtain ⟨hdone, u, hw, rfl⟩ := h s hcfg rfl (by rw [hinput])
  have hruns : Runs s := ⟨hlegal, by rw [hinput]; exact hrst x (List.mem_singleton_self x)⟩
  have hrun : Sys2Proof.core.run 1 s = .next (s.endCycle false u) := run_succ (step_next_of_writes hruns hdone hw)
  obtain ⟨⟨⟨-, hinputs, -⟩, -⟩, -⟩ := quiet_of_writes hw
  have hrest : (s.endCycle false u).inputs = rest := hinputs.trans (by rw [hin]; rfl)
  exact ⟨_, hrun, by rw [endCycle_lineRegs, hinput], hrest, nothingApplied_of_writes hst hdone hw⟩

/-! ### The samples of a frame, rule by rule -/

theorem sequencerWrites_of_idle {s : State} (hst : s.st = .idle) : s.sequencerWrites = some s.idleCycle := by
  simp only [State.sequencerWrites, hst]

theorem sequencerWrites_of_leadLo {s : State} (hst : s.st = .leadLo) :
    s.sequencerWrites = some (s.measure s.leadLoEnd) := by
  simp only [State.sequencerWrites, hst]

theorem sequencerWrites_of_leadHi {s : State} (hst : s.st = .leadHi) :
    s.sequencerWrites = some (s.measure s.leadHiEnd) := by
  simp only [State.sequencerWrites, hst]

theorem sequencerWrites_of_bitLo {s : State} (hst : s.st = .bitLo) :
    s.sequencerWrites = some (s.measure s.bitLoEnd) := by
  simp only [State.sequencerWrites, hst]

theorem sequencerWrites_of_bitHi {s : State} (hst : s.st = .bitHi) :
    s.sequencerWrites = some (s.measure s.bitHiEnd) := by
  simp only [State.sequencerWrites, hst]

theorem sequencerWrites_of_continues {s : State} (hcont : s.continues = true) :
    s.sequencerWrites = some s.holdPhase := by
  obtain ⟨hm, -⟩ := (continues_iff s).1 hcont
  rcases hm with hst | hst | hst | hst | hst <;> simp [State.sequencerWrites, State.measure, hst, hcont]

theorem not_inDoneCycle_of_continues {s : State} (hcont : s.continues = true) : ¬ InDoneCycle s := by
  rintro ⟨hst, hhigh⟩
  simp [State.continues, hst, hhigh, Seq.level] at hcont

theorem measuring_of_level {q : Seq} {b : Bool} (h : q.level = some b) : Measuring q := by
  unfold Measuring
  cases q <;> simp [Seq.level] at h ⊢

/-- The falling edge that starts a leader is its first sample (R101). -/
theorem hears_fallingEdge {c : Config} {r : LineRegs} (hst : r.st = .idle) (hline : r.irQ = true) :
    Hears c r [false] { r with st := .leadLo, irQ := false, pcnt := 1 } := by
  refine hears_sample (.inl hst) ?_
  rintro s - rfl hlow
  refine ⟨not_inDoneCycle_of_st (s := s) hst (by decide), s.idleCycle, sequencerWrites_of_idle hst, ?_⟩
  have hedge : (s.irQ && !s.input.irIn) = true := by rw [hlow, Bool.not_false, Bool.and_true]; exact hline
  rw [State.idleCycle, if_pos hedge]
  rfl

/-- A sample of the measured level is counted (R91). -/
theorem hears_count {c : Config} {r : LineRegs} {b : Bool} (hlevel : r.st.level = some b) (hline : r.irQ = b)
    (hbelow : r.pcnt + 1 < c.pulseCeil) : Hears c r [b] { r with pcnt := r.pcnt + 1 } := by
  refine hears_sample (.inr (measuring_of_level hlevel)) ?_
  rintro s rfl rfl hin
  have hcont : s.continues = true := by
    rw [State.continues, hin]
    exact beq_iff_eq.2 hlevel
  have hbelow : s.pcnt + 1 < s.cfg.pulseCeil := hbelow
  refine ⟨not_inDoneCycle_of_continues hcont, s.holdPhase, sequencerWrites_of_continues hcont, ?_⟩
  rw [State.holdPhase, if_pos hbelow, ← hline]
  rfl

/-- R92, for the four phase ends inside a frame; `atEnd` is what the phase end writes. -/
theorem hears_phaseEnd {c : Config} {r r' : LineRegs} {b : Bool} {atEnd : State → State}
    (hstop : r.st ≠ .stopLo) (hlevel : r.st.level = some (!b))
    (hw : ∀ s : State, s.st = r.st → s.sequencerWrites = some (s.measure (atEnd s)))
    (hend : ∀ s : State, s.lineRegs = r → { (atEnd s).lineRegs with irQ := b } = r') : Hears c r [b] r' := by
  refine hears_sample (.inr (measuring_of_level hlevel)) ?_
  rintro s - rfl hin
  refine ⟨not_inDoneCycle_of_st rfl hstop, atEnd s, ?_, hend s rfl⟩
  have hcont : s.continues = false := by
    rw [State.continues, hin, show s.st.level = some (!b) from hlevel]
    cases b <;> rfl
  rw [hw s rfl, State.measure, hcont, if_neg Bool.false_ne_true]

/-- The leader's low phase ends and is recorded (R102). -/
theorem hears_leadLoEnd {c : Config} {r : LineRegs} (hst : r.st = .leadLo) :
    Hears c r [true] { r with st := .leadHi, irQ := true, pcnt := 1, lead := r.pcnt } :=
  hears_phaseEnd (atEnd := State.leadLoEnd) (by simp [hst]) (by rw [hst]; rfl)
    (fun _ h => sequencerWrites_of_leadLo (h.trans hst)) (by rintro s rfl; rfl)

/-- The leader's high phase ends and the bits begin (R103). -/
theorem hears_leadHiEnd {c : Config} {r : LineRegs} (hst : r.st = .leadHi) :
    Hears c r [false] { r with st := .bitLo, irQ := false, pcnt := 1, frame := 0, nbits := 0 } :=
  hears_phaseEnd (atEnd := State.leadHiEnd) (by simp [hst]) (by rw [hst]; rfl)
    (fun _ h => sequencerWrites_of_leadHi (h.trans hst)) (by rintro s rfl; rfl)

/-- A bit's low phase ends, is classified and shifted in (R105). -/
theorem hears_bitLoEnd {c : Config} {r : LineRegs} (hst : r.st = .bitLo) (hroom : r.nbits < 32) :
    Hears c r [true] { r with
      st := .bitHi, irQ := true, pcnt := 1, frame := shiftIn r.frame (classify r.lead r.pcnt),
      nbits := r.nbits + 1 } := by
  refine hears_phaseEnd (atEnd := State.bitLoEnd) (by simp [hst]) (by rw [hst]; rfl)
    (fun _ h => sequencerWrites_of_bitLo (h.trans hst)) ?_
  rintro s rfl
  have hroom : s.nbits.toNat < 32 := hroom
  have hcount : s.bitLoEnd.nbits.toNat = s.nbits.toNat + 1 := narrow_toNat (by omega)
  rw [State.lineRegs, hcount]
  rfl

/-- A bit's high phase ends; the next bit follows, or the stop pulse (R106). -/
theorem hears_bitHiEnd {c : Config} {r : LineRegs} (hst : r.st = .bitHi) :
    Hears c r [false] { r with st := if r.nbits = frameBits then .stopLo else .bitLo, irQ := false, pcnt := 1 } :=
  hears_phaseEnd (atEnd := State.bitHiEnd) (by simp [hst]) (by rw [hst]; rfl)
    (fun _ h => sequencerWrites_of_bitHi (h.trans hst)) (by rintro s rfl; rfl)

/-! ### The phases of a frame (R70) -/

/-- A phase's length that does not run into the ceiling (R93). -/
abbrev PhaseFits (c : Config) (n : Nat) : Prop := 1 ≤ n ∧ n < c.pulseCeil

theorem hears_hold {c : Config} {r : LineRegs} {b : Bool} {n : Nat} (hlevel : r.st.level = some b)
    (hline : r.irQ = b) (hbelow : r.pcnt + n < c.pulseCeil) :
    Hears c r (phase b n) { r with pcnt := r.pcnt + n } := by
  induction n generalizing r with
  | zero => exact .nil c r
  | succ n ih =>
    have hfirst : Hears c r [b] { r with pcnt := r.pcnt + 1 } := hears_count hlevel hline (by omega)
    have hothers := ih (r := { r with pcnt := r.pcnt + 1 }) hlevel hline (by simp only; omega)
    simp only [Nat.add_assoc, Nat.add_comm 1 n] at hothers
    exact hfirst.append hothers

/-- A whole phase, from its first sample, which the measuring state counts as 1. -/
theorem Hears.wholePhase {c : Config} {r : LineRegs} {q : Seq} {b : Bool} {l : Nat} {f : Word} {k n : Nat}
    (hfirst : Hears c r [b] ⟨q, b, 1, l, f, k⟩) (hlevel : q.level = some b) (hfits : PhaseFits c n) :
    Hears c r (phase b n) ⟨q, b, n, l, f, k⟩ := by
  obtain ⟨m, rfl⟩ := Nat.exists_eq_add_of_le hfits.1
  have hothers : Hears c ⟨q, b, 1, l, f, k⟩ (phase b m) ⟨q, b, 1 + m, l, f, k⟩ :=
    hears_hold hlevel rfl hfits.2
  rw [phase, Nat.add_comm 1 m, List.replicate_succ, Nat.add_comm m 1]
  exact hfirst.append hothers

theorem hears_leader {c : Config} {ll lh : Nat} (hll : PhaseFits c ll) (hlh : PhaseFits c lh) :
    Hears c ⟨.idle, true, 0, 0, 0, 0⟩ (phase false ll ++ phase true lh) ⟨.leadHi, true, lh, ll, 0, 0⟩ :=
  have hlow : Hears c ⟨.idle, true, 0, 0, 0, 0⟩ (phase false ll) ⟨.leadLo, false, ll, 0, 0, 0⟩ :=
    (hears_fallingEdge rfl rfl).wholePhase rfl hll
  hlow.append ((hears_leadLoEnd rfl).wholePhase rfl hlh)

/-- The phase lengths of a bit under the leader `ll`: they fit, and lie on their sides of its threshold (R104). -/
structure BitTiming (c : Config) (ll l0 l1 h : Nat) : Prop where
  zeroFits : PhaseFits c l0
  oneFits : PhaseFits c l1
  highFits : PhaseFits c h
  zeroShort : l0 ≤ thr ll
  oneLong : thr ll < l1

theorem BitTiming.classify_low {c : Config} {ll l0 l1 h : Nat} (ht : BitTiming c ll l0 l1 h) (b : Bool) :
    classify ll (if b then l1 else l0) = b := by
  cases b
  · simpa [classify] using ht.zeroShort
  · simpa [classify] using ht.oneLong

/-- One bit period, once its first sample has led into `BIT_LO`. -/
theorem Hears.wholeBit {c : Config} {ll l0 l1 h k : Nat} {r : LineRegs} {f : Word}
    (hfirst : Hears c r [false] ⟨.bitLo, false, 1, ll, f, k⟩) (ht : BitTiming c ll l0 l1 h) (hk : k < 32) (b : Bool) :
    Hears c r (bitPeriod l0 l1 h b) ⟨.bitHi, true, h, ll, shiftIn f b, k + 1⟩ := by
  have hfits : PhaseFits c (if b then l1 else l0) := by
    cases b
    · exact ht.zeroFits
    · exact ht.oneFits
  have hend := hears_bitLoEnd (c := c) (r := ⟨.bitLo, false, if b then l1 else l0, ll, f, k⟩) rfl hk
  rw [ht.classify_low b] at hend
  exact (hfirst.wholePhase rfl hfits).append (hend.wholePhase rfl ht.highFits)

/-! ### The word in the shift register (R72, R73) -/

/-- The first `k` bits of `w` are the low ones, and stand at the top of the shift register. -/
def received (w : Word) (k : Nat) : Word := w <<< (32 - k)

@[simp] theorem received_zero (w : Word) : received w 0 = 0 := by simp [received]

@[simp] theorem received_all (w : Word) : received w 32 = w := by simp [received]

theorem received_toNat (w : Word) {k : Nat} (hk : k ≤ 32) :
    (received w k).toNat = 2 ^ (32 - k) * (w.toNat % 2 ^ k) := by
  have hpow : 2 ^ 32 = 2 ^ (32 - k) * 2 ^ k := by rw [← pow_add, Nat.sub_add_cancel hk]
  rw [received, BitVec.toNat_shiftLeft, Nat.shiftLeft_eq, hpow, mul_comm w.toNat, Nat.mul_mod_mul_left]

theorem shiftIn_received (w : Word) {k : Nat} (hk : k < 32) :
    shiftIn (received w k) (w.getLsbD k) = received w (k + 1) := by
  have hpow : 2 ^ (32 - k) = 2 * 2 ^ (32 - (k + 1)) := by
    rw [← pow_succ']
    congr 1
    omega
  have htop : 2 ^ 31 = 2 ^ (32 - (k + 1)) * 2 ^ k := by
    rw [← pow_add]
    congr 1
    omega
  have hbit : (if w.getLsbD k then 2 ^ 31 else 0) = 2 ^ (32 - (k + 1)) * (2 ^ k * (w.getLsbD k).toNat) := by
    cases w.getLsbD k
    · simp
    · simpa using htop
  apply BitVec.eq_of_toNat_eq
  rw [shiftIn_toNat, received_toNat w hk.le, received_toNat w hk, hpow, mul_assoc,
    Nat.mul_div_cancel_left _ two_pos, hbit, Nat.mod_pow_succ, ← Nat.toNat_testBit, mul_add]
  rfl

/-! ### The frame -/

/-- The bit periods after the first, each entered from the `BIT_HI` of the one before. -/
theorem hears_bitPeriods {c : Config} {ll l0 l1 h : Nat} (ht : BitTiming c ll l0 l1 h) (w : Word) {k n : Nat}
    (hkn : k + n ≤ 32) :
    Hears c ⟨.bitHi, true, h, ll, received w k, k⟩ (bitPeriods w l0 l1 h k n)
      ⟨.bitHi, true, h, ll, received w (k + n), k + n⟩ := by
  induction n generalizing k with
  | zero => exact .nil _ _
  | succ n ih =>
    have hroom : k < 32 := by omega
    have hfirst := hears_bitHiEnd (c := c) (r := ⟨.bitHi, true, h, ll, received w k, k⟩) rfl
    rw [if_neg (by simp only [frameBits]; omega)] at hfirst
    have hperiod := hfirst.wholeBit ht hroom (w.getLsbD k)
    rw [shiftIn_received w hroom] at hperiod
    have hothers := ih (k := k + 1) (by omega)
    rw [Nat.add_right_comm] at hothers
    exact hperiod.append hothers

theorem hears_word {c : Config} {ll lh l0 l1 h : Nat} (ht : BitTiming c ll l0 l1 h) (w : Word) :
    Hears c ⟨.leadHi, true, lh, ll, 0, 0⟩ (bitPeriods w l0 l1 h 0 frameBits) ⟨.bitHi, true, h, ll, w, 32⟩ := by
  have hfirst := hears_leadHiEnd (c := c) (r := ⟨.leadHi, true, lh, ll, 0, 0⟩) rfl
  have hbit : shiftIn 0 (w.getLsbD 0) = received w 1 := by simpa using shiftIn_received w (k := 0) (by decide)
  have hperiod := hfirst.wholeBit ht (by decide) (w.getLsbD 0)
  have hothers := hears_bitPeriods ht w (k := 1) (n := 31) (by decide)
  rw [hbit] at hperiod
  rw [received_all] at hothers
  rw [frameBits, bitPeriods]
  exact hperiod.append hothers

theorem hears_frameX {c : Config} {ll lh l0 l1 h sp : Nat} (hll : PhaseFits c ll) (hlh : PhaseFits c lh)
    (ht : BitTiming c ll l0 l1 h) (hsp : PhaseFits c sp) (w : Word) :
    Hears c ⟨.idle, true, 0, 0, 0, 0⟩ (frameX w ll lh l0 l1 h sp) ⟨.stopLo, false, sp, ll, w, 32⟩ :=
  ((hears_leader hll hlh).append (hears_word ht w)).append ((hears_bitHiEnd rfl).wholePhase rfl hsp)

/-- Settles O4: the four parts of the frame follow one another, and `LineRegs` holds the registers it speaks of. -/
theorem frameOnTheLineIsReceived : Obligations.FrameOnTheLineIsReceived := by
  rintro s w ll lh l0 l1 h sp xs rest hlegal hst hline ⟨hpcnt, hlead, hframe, hnbits⟩ hin hlevels hrst hll hlh hl0 hl1
    hh hsp hshort hlong
  have hregs : s.lineRegs = ⟨.idle, true, 0, 0, 0, 0⟩ := by
    simp [State.lineRegs, hst, hline, hpcnt, hlead, hframe, hnbits]
  have ht : BitTiming s.cfg ll l0 l1 h := ⟨hl0, hl1, hh, by rwa [thr_eq], by rwa [thr_eq]⟩
  obtain ⟨t, hrun, hregst, hrest, hcfg, hvol, hdisplay, hnone⟩ :=
    hears_frameX hll hlh ht hsp w s xs rest rfl hlegal hregs hin hlevels hrst
  simp only [State.lineRegs, LineRegs.mk.injEq] at hregst
  obtain ⟨hstt, -, hpcntt, hleadt, hframet, hnbitst⟩ := hregst
  exact ⟨t, hrun, hstt, hframet, (nbits_toNat_eq_frameBits _).1 hnbitst, hleadt, hpcntt, hrest, hcfg, hvol, hdisplay,
    hnone⟩

end Machine
end Sys2Proof
end

section
/-! SUPPORT. The statements of 40_pulse_timer.md: a phase that continues is counted (R91), and the decoder's time base
and the gate's are independent (R96). -/

namespace Sys2Proof.Machine

/-! ### A phase continues (R91) -/

/-- Settles O15: below the ceiling the timer writes `pcnt` only, and no measuring state outputs. -/
theorem continueCountsTheSample : Obligations.ContinueCountsTheSample := by
  intro s hruns hm hlevel hbelow
  have hcont : s.continues = true := (continues_iff s).2 ⟨hm, hlevel⟩
  have hdone : ¬ InDoneCycle s := not_inDoneCycle_of_continues hcont
  have hw : s.sequencerWrites = some { s with pcnt := s.pcnt + 1 } := by
    rw [sequencerWrites_of_continues hcont, State.holdPhase, if_pos hbelow]
  obtain ⟨-, hvol, hdisplay, hnone⟩ := nothingApplied_of_writes (.inr hm) hdone hw
  obtain ⟨hquiet, -⟩ := quiet_of_writes hw
  exact ⟨_, step_next_of_writes hruns hdone hw, State.endCycle_st .., State.endCycle_pcnt .., State.endCycle_lead ..,
    State.endCycle_frame .., State.endCycle_nbits .., hvol, hdisplay, hnone, hquiet⟩

/-! ### A command's meaning does not read the decoder's registers (R96)

The gate's answer, the volume rule and the rules of every cycle do not read them, and the Done cycle clears them. -/

/-- The state with other values in the decoder's transient registers. -/
def State.withTransient (s : State) (p l : Nat) (f : Word) (n : BitVec 6) : State :=
  { s with pcnt := p, lead := l, frame := f, nbits := n }

section
variable (s : State) (p l : Nat) (f : Word) (n : BitVec 6)

@[simp] theorem gateAnswer_withTransient (i : Instr) : (s.withTransient p l f n).gateAnswer i = s.gateAnswer i := rfl

@[simp] theorem accepted_withTransient (a : GateAnswer) (ap : Volume → Volume) :
    (s.withTransient p l f n).accepted a ap = s.accepted a ap := rfl

@[simp] theorem rejected_withTransient (a : GateAnswer) : (s.withTransient p l f n).rejected a = s.rejected a := rfl

/-- The rules of every cycle read no decoder register of the state the cycle starts in. -/
@[simp] theorem endCycle_withTransient (accept : Bool) (t : State) :
    (s.withTransient p l f n).endCycle accept t = s.endCycle accept t := rfl

theorem commandCycle_withTransient (i : Instr) (ap : Volume → Volume) :
    (s.withTransient p l f n).commandCycle i ap = s.commandCycle i ap := by
  by_cases hgate : GateLetsThrough s i
  · rw [commandCycle_of_accept ap hgate, commandCycle_of_accept (s := s.withTransient p l f n) ap hgate]
    simp
  · rw [commandCycle_of_reject ap hgate, commandCycle_of_reject (s := s.withTransient p l f n) ap hgate]
    simp

end

theorem exec_withTransient (i : Instr) (s : State) (p l : Nat) (f : Word) (n : BitVec 6) :
    exec i (s.withTransient p l f n) = exec i s := by
  rw [exec_eq, exec_eq, commandCycle_withTransient]

/-! ### The sequencer does not read `gap` (R96)

With another `gap` it takes the same branches and makes the same writes, and carries that `gap` along. -/

/-- The state with another value in the inter-command counter. -/
def State.withGap (s : State) (g : Nat) : State := { s with gap := g }

section
variable (s : State) (g : Nat)

theorem withGap_ite {c : Prop} [Decidable c] (t e : State) :
    (if c then t else e).withGap g = if c then t.withGap g else e.withGap g :=
  apply_ite (State.withGap · g) c t e

theorem idleCycle_withGap : (s.withGap g).idleCycle = s.idleCycle.withGap g := by
  unfold State.idleCycle
  rw [withGap_ite]
  rfl

theorem holdPhase_withGap : (s.withGap g).holdPhase = s.holdPhase.withGap g := by
  unfold State.holdPhase
  rw [withGap_ite]
  rfl

theorem measure_withGap (e : State) : (s.withGap g).measure (e.withGap g) = (s.measure e).withGap g := by
  unfold State.measure
  rw [holdPhase_withGap, withGap_ite]
  rfl

theorem outOpcCycle_withGap : (s.withGap g).outOpcCycle = s.outOpcCycle.withGap g := by
  unfold State.outOpcCycle
  rw [withGap_ite]
  rfl

theorem outDataCycle_withGap (b : Byte) : (s.withGap g).outDataCycle b = (s.outDataCycle b).withGap g := by
  unfold State.outDataCycle
  rw [withGap_ite]
  rfl

end

theorem sequencerWrites_withGap {s u : State} (g : Nat) (h : s.sequencerWrites = some u) :
    (s.withGap g).sequencerWrites = some (u.withGap g) := by
  have hst : (s.withGap g).st = s.st := rfl
  unfold State.sequencerWrites at h ⊢
  rw [hst]
  cases hq : s.st <;> simp only [hq, Option.some.injEq, Option.map_eq_some_iff] at h ⊢
  case idle => exact h ▸ idleCycle_withGap s g
  case leadLo => exact h ▸ measure_withGap s g s.leadLoEnd
  case leadHi => exact h ▸ measure_withGap s g s.leadHiEnd
  case bitLo => exact h ▸ measure_withGap s g s.bitLoEnd
  case bitHi => exact h ▸ measure_withGap s g s.bitHiEnd
  case stopLo => exact h ▸ holdPhase_withGap s g
  case outSel => exact h ▸ rfl
  case outOpc => exact h ▸ outOpcCycle_withGap s g
  case outData => obtain ⟨b, hb, rfl⟩ := h; exact ⟨b, hb, outDataCycle_withGap s g b⟩
  case outTens => obtain ⟨b, hb, rfl⟩ := h; exact ⟨b, hb, rfl⟩
  case outOnes => obtain ⟨b, hb, rfl⟩ := h; exact ⟨b, hb, rfl⟩

/-! ### What a Done cycle leaves of the decoder (R109, R175) -/

/-- Whatever the word is and whatever the gate answers. -/
theorem step_of_done {s : State} (hruns : Runs s) (hdone : InDoneCycle s) :
    ∃ t, step s = .next t ∧ TransientCleared t ∧ LineSampled s t := by
  cases hdec : decode s.cfg s.frame with
  | error r =>
    obtain ⟨-, hclear, -, -, -, -, hline, -⟩ := dropCycle_frame s
    exact ⟨_, step_of_unrec hruns hdone hdec, hclear, hline⟩
  | ok i =>
    refine ⟨_, step_of_command hruns hdone hdec, ?_⟩
    by_cases hgate : GateLetsThrough s i
    · obtain ⟨⟨-, -, -, -, hclear, -, -, -, hline⟩, -⟩ := commandCycle_accept_frame (volApply i) hgate
      exact ⟨hclear, hline⟩
    · obtain ⟨-, hclear, -, -, -, -, hline, -⟩ := commandCycle_reject_frame (volApply i) hgate
      exact ⟨hclear, hline⟩

/-- The decoder's registers in a Done cycle end cleared under any `gap`; in any other cycle the writes are the same. -/
theorem step_withGap {s t : State} (g : Nat) (hruns : Runs s) (h : step s = .next t) :
    ∃ u, step (s.withGap g) = .next u ∧ TransientKept t u ∧ u.irQ = t.irQ ∧ (¬ InDoneCycle s → u.st = t.st) := by
  by_cases hdone : InDoneCycle s
  · obtain ⟨t', ht, ⟨hpcnt, hlead, hframe, hnbits⟩, hline⟩ := step_of_done hruns hdone
    obtain ⟨u, hu, ⟨hpcnt', hlead', hframe', hnbits'⟩, hline'⟩ := step_of_done (s := s.withGap g) hruns hdone
    cases ht.symm.trans h
    exact ⟨u, hu, ⟨hpcnt'.trans hpcnt.symm, hlead'.trans hlead.symm, hframe'.trans hframe.symm,
      hnbits'.trans hnbits.symm⟩, hline'.trans hline.symm, fun hnot => absurd hdone hnot⟩
  · obtain ⟨w, hw, rfl⟩ := writes_of_step hruns hdone h
    have hu := step_next_of_writes (s := s.withGap g) hruns hdone (sequencerWrites_withGap g hw)
    have hline : ((s.withGap g).endCycle false (w.withGap g)).irQ = (s.endCycle false w).irQ := by
      rw [State.endCycle_irQ, State.endCycle_irQ]
      rfl
    exact ⟨_, hu, by simp [TransientKept, State.withGap], hline, fun _ => by simp [State.withGap]⟩

/-- Settles O25: a command's Done cycle clears the decoder's registers unread, and only the gate reads `gap`. -/
theorem timeBasesAreIndependent : Obligations.TimeBasesAreIndependent := by
  refine ⟨exec_withTransient, fun s t g hruns h => ?_⟩
  obtain ⟨u, hu, ⟨hpcnt, hlead, hframe, hnbits⟩, hline, hst⟩ := step_withGap g hruns h
  exact ⟨u, hu, hpcnt, hlead, hframe, hnbits, hline, hst⟩

end Sys2Proof.Machine
end

section
/-! SUPPORT. The statements of 41_frame_decoder.md: the falling edge and the phase ends of a frame (R101 to R106), the
Done cycle (R107), the previous sample (R111), and the line during an output sequence (R112). -/

namespace Sys2Proof.Machine

/-! ### The cycles that wait for a frame or measure a phase -/

/-- Waiting in `IDLE` and in the measuring states, a cycle that is no Done cycle ends with the sequencer's writes, and
beside them only the rules of every cycle act. -/
theorem step_of_receiving {s u : State} (hruns : Runs s) (hst : s.st = .idle ∨ Measuring s.st)
    (hdone : ¬ InDoneCycle s) (hw : s.sequencerWrites = some u) :
    step s = .next (s.endCycle false u) ∧ VolumeKept s (s.endCycle false u) ∧ DisplayKept s (s.endCycle false u) ∧
      NoEvent s (s.endCycle false u) ∧ QuietBackground s (s.endCycle false u) := by
  obtain ⟨-, hvol, hdisplay, hnone⟩ := nothingApplied_of_writes hst hdone hw
  obtain ⟨hquiet, -⟩ := quiet_of_writes hw
  exact ⟨step_next_of_writes hruns hdone hw, hvol, hdisplay, hnone, hquiet⟩

theorem measure_of_phaseEnd {s : State} (e : State) (hlevel : s.st.level = some (!s.input.irIn)) :
    s.measure e = e := by
  have hends : s.continues = false := by
    rw [State.continues, hlevel]
    cases s.input.irIn <;> rfl
  rw [State.measure, hends, if_neg Bool.false_ne_true]

/-- R92, for the four phase ends inside a frame; `e` is what the phase end writes. -/
theorem step_of_phaseEnd {s e : State} (hruns : Runs s) (hstop : s.st ≠ .stopLo)
    (hlevel : s.st.level = some (!s.input.irIn)) (hw : s.sequencerWrites = some (s.measure e)) :
    step s = .next (s.endCycle false e) ∧ VolumeKept s (s.endCycle false e) ∧ DisplayKept s (s.endCycle false e) ∧
      NoEvent s (s.endCycle false e) ∧ QuietBackground s (s.endCycle false e) := by
  rw [measure_of_phaseEnd e hlevel] at hw
  exact step_of_receiving hruns (.inr (measuring_of_level hlevel)) (not_inDoneCycle_of_st rfl hstop) hw

/-! ### The threshold (R104) -/

theorem thr_mono {l l' : Nat} (h : l ≤ l') : thr l ≤ thr l' := by
  rw [thr_eq, thr_eq]
  omega

theorem thr_eq_zero {l : Nat} (h : l ≤ 7) : thr l = 0 := by
  rw [thr_eq]
  omega

/-- Settles O20, from the shifts read as floor divisions. -/
theorem thresholdFormula : Obligations.ThresholdFormula :=
  ⟨fun l => ⟨thr_eq l, by omega⟩, fun _ _ => thr_mono, fun _ => thr_eq_zero, rfl, rfl, rfl, rfl, rfl⟩

/-! ### The registers after a phase end (R102 to R106) -/

/-- Settles O21: the end of `BIT_LO` is a phase end, and `bitLoEnd` computes in the naturals what R105 says. -/
theorem bitIsClassifiedAndShiftedIn : Obligations.BitIsClassifiedAndShiftedIn := by
  intro s hruns hst hhigh hroom
  obtain ⟨hstep, hframe⟩ :=
    step_of_phaseEnd hruns (by simp [hst]) (by rw [hst, hhigh]; rfl) (sequencerWrites_of_bitLo hst)
  have hshift : s.bitLoEnd.frame.toNat =
      s.frame.toNat / 2 + (if (s.lead / 4 + s.lead / 8) / 2 < s.pcnt then 2 ^ 31 else 0) := by
    simp only [State.bitLoEnd, shiftIn_toNat, classify, decide_eq_true_eq, thr_eq]
  have hcount : s.bitLoEnd.nbits.toNat = s.nbits.toNat + 1 := narrow_toNat (by omega)
  refine ⟨_, hstep, ?_, ?_, State.endCycle_pcnt .., State.endCycle_st .., State.endCycle_lead .., hframe⟩
  · rw [State.endCycle_frame, hshift]
  · rw [State.endCycle_nbits, hcount]

/-- Settles O18: the end of `LEAD_LO` is a phase end, which writes `leadLoEnd`. -/
theorem leaderLowIsRecorded : Obligations.LeaderLowIsRecorded := by
  intro s hruns hst hhigh
  obtain ⟨hstep, hframe⟩ :=
    step_of_phaseEnd hruns (by simp [hst]) (by rw [hst, hhigh]; rfl) (sequencerWrites_of_leadLo hst)
  exact ⟨_, hstep, State.endCycle_lead .., State.endCycle_pcnt .., State.endCycle_st .., State.endCycle_frame ..,
    State.endCycle_nbits .., hframe⟩

/-- Settles O19: the end of `LEAD_HI` is a phase end, which writes `leadHiEnd`. -/
theorem leaderHighBeginsBits : Obligations.LeaderHighBeginsBits := by
  intro s hruns hst hlow
  obtain ⟨hstep, hframe⟩ :=
    step_of_phaseEnd hruns (by simp [hst]) (by rw [hst, hlow]; rfl) (sequencerWrites_of_leadHi hst)
  exact ⟨_, hstep, State.endCycle_pcnt .., State.endCycle_nbits .., State.endCycle_frame .., State.endCycle_st ..,
    State.endCycle_lead .., hframe⟩

/-- Settles O22: the end of `BIT_HI` is a phase end, and `bitHiEnd` tests the bit count as a number. -/
theorem bitHighLeadsOn : Obligations.BitHighLeadsOn := by
  intro s hruns hst hlow
  obtain ⟨hstep, hframe⟩ :=
    step_of_phaseEnd hruns (by simp [hst]) (by rw [hst, hlow]; rfl) (sequencerWrites_of_bitHi hst)
  have hnext : s.bitHiEnd.st = if s.nbits = 32 then .stopLo else .bitLo := by
    simp only [State.bitHiEnd, nbits_toNat_eq_frameBits]
  exact ⟨_, hstep, State.endCycle_pcnt .., (State.endCycle_st ..).trans hnext, State.endCycle_lead ..,
    State.endCycle_frame .., State.endCycle_nbits .., hframe⟩

/-! ### The falling edge (R101) -/

theorem idleCycle_of_edge {s : State} (h : s.irQ = true ∧ s.input.irIn = false) :
    s.idleCycle = { s with st := .leadLo, pcnt := 1 } := by
  simp [State.idleCycle, h]

theorem idleCycle_of_no_edge {s : State} (h : ¬ (s.irQ = true ∧ s.input.irIn = false)) : s.idleCycle = s := by
  rw [State.idleCycle, if_neg (by simpa using h)]

/-- Settles O17: an `IDLE` cycle with the edge writes `st` and `pcnt`, and one without it writes nothing. -/
theorem fallingEdgeStartsLeader : Obligations.FallingEdgeStartsLeader := by
  intro s hruns hst
  obtain ⟨hstep, hframe⟩ := step_of_receiving hruns (.inl hst) (not_inDoneCycle_of_st hst (by decide))
    (sequencerWrites_of_idle hst)
  refine ⟨_, hstep, ?_⟩
  by_cases hedge : s.irQ = true ∧ s.input.irIn = false
  · rw [if_pos hedge]
    rw [idleCycle_of_edge hedge] at hframe ⊢
    exact ⟨⟨State.endCycle_st .., State.endCycle_pcnt ..⟩, State.endCycle_lead .., State.endCycle_frame ..,
      State.endCycle_nbits .., hframe⟩
  · rw [if_neg hedge]
    rw [idleCycle_of_no_edge hedge] at hframe ⊢
    exact ⟨⟨(State.endCycle_st ..).trans hst, State.endCycle_pcnt ..⟩, State.endCycle_lead .., State.endCycle_frame ..,
      State.endCycle_nbits .., hframe⟩

/-! ### The Done cycle (R107) and the previous sample (R111) -/

/-- Settles O13: both sides are the command cycle of `i`. -/
theorem stepRunsDecodedCommand : Obligations.StepRunsDecodedCommand := fun s i hruns hdone hdec =>
  (step_of_command hruns hdone hdec).trans (exec_eq i s).symm

/-- Settles O23: the sample is taken by every Done cycle, whatever its word, and by the end of every other cycle. -/
theorem previousSampleIsKept : Obligations.PreviousSampleIsKept := by
  intro s t hruns h
  by_cases hdone : InDoneCycle s
  · obtain ⟨t', ht, -, hline⟩ := step_of_done hruns hdone
    cases ht.symm.trans h
    exact hline
  · obtain ⟨u, -, rfl⟩ := writes_of_step hruns hdone h
    exact State.endCycle_irQ ..

/-! ### The line during an output sequence (R112)

The output states read of an input the acknowledge only, and the end of a cycle reads the line into `ir_q` only; so
two inputs that agree on the rest give the same writes. -/

/-- The state with another stimulus. -/
def State.withInputs (s : State) (xs : List Input) : State := { s with inputs := xs }

/-- The output states (R22). -/
abbrev Outputting (q : Seq) : Prop := q = .outSel ∨ q = .outOpc ∨ q = .outData ∨ q = .outTens ∨ q = .outOnes

section
variable (s : State) {x y : Input} (rest : List Input)

@[simp] theorem withInputs_input : (s.withInputs (x :: rest)).input = x := rfl

theorem outOpcCycle_withInputs (hack : x.attAck = y.attAck) :
    (s.withInputs (y :: rest)).outOpcCycle = (s.withInputs (x :: rest)).outOpcCycle.withInputs (y :: rest) := by
  unfold State.outOpcCycle
  rw [withInputs_input, withInputs_input, hack]
  split_ifs <;> rfl

theorem outDataCycle_withInputs (b : Byte) (hack : x.attAck = y.attAck) :
    (s.withInputs (y :: rest)).outDataCycle b = ((s.withInputs (x :: rest)).outDataCycle b).withInputs (y :: rest) := by
  unfold State.outDataCycle
  rw [withInputs_input, withInputs_input, hack]
  split_ifs <;> rfl

theorem endCycle_withInputs (u : State) (hin : u.inputs = x :: rest) (hgtick : x.gtick = y.gtick) :
    (s.withInputs (y :: rest)).endCycle false (u.withInputs (y :: rest)) =
      { (s.withInputs (x :: rest)).endCycle false u with irQ := y.irIn } := by
  have hgap : (s.withInputs (y :: rest)).nextGap false = (s.withInputs (x :: rest)).nextGap false := by
    unfold State.nextGap
    rw [withInputs_input, withInputs_input, hgtick]
    rfl
  have hfires : (s.withInputs (y :: rest)).clearFires false = (s.withInputs (x :: rest)).clearFires false := rfl
  rw [State.endCycle, State.endCycle, hgap, hfires]
  cases (s.withInputs (x :: rest)).clearFires false <;>
    simp [State.idleClear, State.nextSample, State.withInputs, hin, State.input]

end

theorem sequencerWrites_withInputs {s u : State} {x y : Input} {rest : List Input} (hst : Outputting s.st)
    (hack : x.attAck = y.attAck) (h : (s.withInputs (x :: rest)).sequencerWrites = some u) :
    (s.withInputs (y :: rest)).sequencerWrites = some (u.withInputs (y :: rest)) := by
  have hx : (s.withInputs (x :: rest)).st = s.st := rfl
  have hy : (s.withInputs (y :: rest)).st = s.st := rfl
  unfold State.sequencerWrites at h ⊢
  rw [hx] at h
  rw [hy]
  rcases hst with hq | hq | hq | hq | hq <;> simp only [hq, Option.some.injEq, Option.map_eq_some_iff] at h ⊢
  · exact h ▸ rfl
  · exact h ▸ outOpcCycle_withInputs s rest hack
  · obtain ⟨b, hb, rfl⟩ := h; exact ⟨b, hb, outDataCycle_withInputs s rest b hack⟩
  · obtain ⟨b, hb, rfl⟩ := h; exact ⟨b, hb, rfl⟩
  · obtain ⟨b, hb, rfl⟩ := h; exact ⟨b, hb, rfl⟩

/-- Settles O24: the writes are the same under both inputs, and the end of the cycle differs in `ir_q` only. -/
theorem lineIgnoredDuringOutput : Obligations.LineIgnoredDuringOutput := by
  intro s t x y rest hst hx hy hgtick hack h
  obtain ⟨hlegal, -⟩ := step_cases h
  have hdone : s.st ≠ .stopLo := by rcases hst with hq | hq | hq | hq | hq <;> simp [hq]
  obtain ⟨u, hw, rfl⟩ := writes_of_step ⟨hlegal, hx⟩ (not_inDoneCycle_of_st rfl hdone) h
  obtain ⟨-, hin, -⟩ := sequencerWrites_keeps hw
  have hstep : step (s.withInputs (y :: rest)) = _ :=
    step_next_of_writes ⟨hlegal, hy⟩ (not_inDoneCycle_of_st rfl hdone) (sequencerWrites_withInputs hst hack hw)
  rw [endCycle_withInputs s rest u hin hgtick] at hstep
  exact hstep

end Sys2Proof.Machine
end

section
/-! SUPPORT. The statements of 42_frame_validator.md: which of R121's tests a word fails, and which command it selects
when it fails none, on its bytes and then as numbers (R120, R121); the Done cycle of a word that does not decode
(R122). -/

namespace Sys2Proof

/-! ### The byte fields as numbers (R120) -/

theorem addr0_eq_iff (w : Word) (b : Byte) : addr0 w = b ↔ w.toNat % 256 = b.toNat := by
  rw [← BitVec.toNat_inj, addr0_toNat]

theorem addr1_eq_iff (w : Word) (b : Byte) : addr1 w = b ↔ w.toNat / 256 % 256 = b.toNat := by
  rw [← BitVec.toNat_inj, addr1_toNat]

theorem cmdByte_eq_iff (w : Word) (b : Byte) : cmdByte w = b ↔ w.toNat / 65536 % 256 = b.toNat := by
  rw [← BitVec.toNat_inj, cmdByte_toNat]

/-- The complement of a byte is its difference to 255. -/
theorem chkByte_eq_not_iff (w : Word) :
    chkByte w = ~~~(cmdByte w) ↔ w.toNat / 16777216 = 255 - w.toNat / 65536 % 256 := by
  rw [← BitVec.toNat_inj, chkByte_toNat, BitVec.toNat_not, cmdByte_toNat]

/-! ### The tests, in their order (R121) -/

/-- Past the two address tests and the checksum, the command byte alone decides. -/
theorem decode_of_framed {c : Config} {w : Word} (haddr0 : addr0 w = c.addr) (haddr1 : addr1 w = c.addr)
    (hchk : chkByte w = ~~~(cmdByte w)) :
    decode c w =
      if cmdByte w = c.cmdUp then .ok .volUp
      else if cmdByte w = c.cmdDown then .ok .volDown
      else if cmdByte w = c.cmdMute then .ok .mute
      else .error .unknownCmd := by
  rw [decode, if_neg (not_not.2 haddr0), if_neg (not_not.2 haddr1), if_neg (not_not.2 hchk)]

/-- A word is either stopped by the first of the three framing tests it fails, or passes all three. -/
theorem decode_framing_cases (c : Config) (w : Word) :
    (addr0 w ≠ c.addr ∧ decode c w = .error .badAddr0) ∨
    (addr0 w = c.addr ∧ addr1 w ≠ c.addr ∧ decode c w = .error .badAddr1) ∨
    (addr0 w = c.addr ∧ addr1 w = c.addr ∧ chkByte w ≠ ~~~(cmdByte w) ∧ decode c w = .error .badCheck) ∨
    (addr0 w = c.addr ∧ addr1 w = c.addr ∧ chkByte w = ~~~(cmdByte w) ∧
      decode c w ≠ .error .badAddr0 ∧ decode c w ≠ .error .badAddr1 ∧ decode c w ≠ .error .badCheck) := by
  by_cases haddr0 : addr0 w = c.addr
  case neg => exact .inl ⟨haddr0, if_pos haddr0⟩
  by_cases haddr1 : addr1 w = c.addr
  case neg => exact .inr (.inl ⟨haddr0, haddr1, by rw [decode, if_neg (not_not.2 haddr0), if_pos haddr1]⟩)
  by_cases hchk : chkByte w = ~~~(cmdByte w)
  case neg =>
    refine .inr (.inr (.inl ⟨haddr0, haddr1, hchk, ?_⟩))
    rw [decode, if_neg (not_not.2 haddr0), if_neg (not_not.2 haddr1), if_pos hchk]
  refine .inr (.inr (.inr ⟨haddr0, haddr1, hchk, ?_⟩))
  rw [decode_of_framed haddr0 haddr1 hchk]
  split_ifs <;> simp

theorem decode_eq_badAddr0_iff (c : Config) (w : Word) : decode c w = .error .badAddr0 ↔ addr0 w ≠ c.addr := by
  rcases decode_framing_cases c w with h | h | h | h <;> simp [h]

theorem decode_eq_badAddr1_iff (c : Config) (w : Word) :
    decode c w = .error .badAddr1 ↔ addr0 w = c.addr ∧ addr1 w ≠ c.addr := by
  rcases decode_framing_cases c w with h | h | h | h <;> simp [h]

theorem decode_eq_badCheck_iff (c : Config) (w : Word) :
    decode c w = .error .badCheck ↔ addr0 w = c.addr ∧ addr1 w = c.addr ∧ chkByte w ≠ ~~~(cmdByte w) := by
  rcases decode_framing_cases c w with h | h | h | h <;> simp [h]

/-! ### The statements -/

/-- Settles O2: the tests on bytes, each byte read as its number. -/
theorem validateFollowsItsTests : Obligations.ValidateFollowsItsTests := by
  rintro c w _ _ _ _ rfl rfl rfl rfl
  simp only [ne_eq, ← addr0_eq_iff, ← addr1_eq_iff, ← cmdByte_eq_iff, ← chkByte_eq_not_iff]
  refine ⟨decode_eq_badAddr0_iff c w, decode_eq_badAddr1_iff c w, decode_eq_badCheck_iff c w,
    fun haddr0 haddr1 hchk => ?_⟩
  rw [decode_of_framed haddr0 haddr1 hchk]
  refine ⟨fun hup => ?_, fun hup hdown => ?_, fun hup hdown hmute => ?_, fun hup hdown hmute => ?_⟩
  · rw [if_pos hup]
  · rw [if_neg hup, if_pos hdown]
  · rw [if_neg hup, if_neg hdown, if_pos hmute]
  · rw [if_neg hup, if_neg hdown, if_neg hmute]

namespace Machine

/-- Settles O14: the step is the drop cycle, whatever test the word failed. -/
theorem unrecWordIsDropped : Obligations.UnrecWordIsDropped := fun s _ hruns hdone hdec =>
  ⟨s.dropCycle, step_of_unrec hruns hdone hdec, dropCycle_frame s⟩

end Machine
end Sys2Proof
end

section
/-! SUPPORT. The statements of 43_command_gate.md: which commands the gate accepts (R131 to R133), and the two rules of
it that run in every cycle, the idle clear (R136) and the inter-command counter (R137). -/

namespace Sys2Proof.Machine

/-! ### The gate's condition, rule by rule -/

/-- R131. -/
theorem not_gateLetsThrough_of_gap_lt {s : State} (i : Instr) (hgap : s.gap < s.cfg.tGap) : ¬ GateLetsThrough s i :=
  fun ⟨hpassed, _⟩ => absurd hpassed (Nat.not_le.2 hgap)

/-- R132. -/
theorem gateLetsThrough_same_iff {s : State} {i : Instr} (hgap : s.cfg.tGap ≤ s.gap) (hlast : s.last = some i) :
    GateLetsThrough s i ↔ s.cfg.tRepeat ≤ s.gap ∨ (s.rcount = 5 ∧ i ≠ .mute) := by
  rw [GateLetsThrough, and_iff_right hgap, or_iff_right (not_not.2 hlast)]

/-- R133. -/
theorem gateLetsThrough_of_different {s : State} {i : Instr} (hgap : s.cfg.tGap ≤ s.gap) (hlast : s.last ≠ some i) :
    GateLetsThrough s i := ⟨hgap, .inl hlast⟩

/-! ### The two ends of a command's Done cycle, as answers of `exec` (R135, R175) -/

theorem exec_of_letsThrough {s : State} {i : Instr} (hgate : GateLetsThrough s i) :
    ∃ t, exec i s = .next t ∧ AcceptedFrame s t i := by
  obtain ⟨hframe, -⟩ := commandCycle_accept_frame (volApply i) hgate
  exact ⟨_, exec_eq i s, hframe⟩

theorem exec_of_turnedAway {s : State} {i : Instr} (hgate : ¬ GateLetsThrough s i) :
    ∃ t, exec i s = .next t ∧ TurnedAway s t :=
  ⟨_, exec_eq i s, commandCycle_reject_frame (volApply i) hgate⟩

/-! ### What the rules of every cycle leave (R136, R137) -/

theorem step_quiet_of_not_accepts {s t : State} (hruns : Runs s) (h : step s = .next t)
    (hnone : ¬ ∃ i, Accepts s i) : QuietBackground s t := by
  obtain ⟨-, hrst⟩ := hruns
  obtain ⟨i, hacc, -⟩ | ⟨-, -, -, -, -, -, -, hquiet⟩ | ⟨-, u, hw, -, rfl⟩ := runs_step_cases hrst h
  · exact absurd ⟨i, hacc⟩ hnone
  · exact hquiet
  · obtain ⟨hquiet, -⟩ := quiet_of_writes hw
    exact hquiet

theorem step_accepted_of_accepts {s t : State} {i : Instr} (hruns : Runs s) (h : step s = .next t)
    (hacc : Accepts s i) : AcceptedFrame s t i := by
  obtain ⟨hdone, hdec, hgate⟩ := hacc
  obtain ⟨hframe, -⟩ := commandCycle_accept_frame (volApply i) hgate
  cases (step_of_command hruns hdone hdec).symm.trans h
  exact hframe

/-! ### The statements -/

/-- Settles O29: the gate's condition asks for the minimum gap whatever the command is. -/
theorem minimumGapRejects : Obligations.MinimumGapRejects := fun i _ hgap =>
  exec_of_turnedAway (not_gateLetsThrough_of_gap_lt i hgap)

/-- Settles O30: of the gate's condition R132's test is left, which decides between the two ends of the Done cycle. -/
theorem sameCommandAgain : Obligations.SameCommandAgain := by
  intro i s hgap hlast
  rw [← gateLetsThrough_same_iff hgap hlast]
  refine ⟨fun hgate => ?_, exec_of_turnedAway⟩
  obtain ⟨t, hexec, hst, hlast', hcount, hgap', -⟩ := exec_of_letsThrough hgate
  rw [if_pos hlast] at hcount
  exact ⟨t, hexec, hst, hlast'.trans hlast.symm, hcount, hgap'⟩

/-- Settles O31: a command other than `last` needs the minimum gap only, and its repeat count starts anew at 1. -/
theorem differentCommandAccepted : Obligations.DifferentCommandAccepted := by
  intro i s hgap hlast
  obtain ⟨t, hexec, hst, hlast', hcount, hgap', -⟩ := exec_of_letsThrough (gateLetsThrough_of_different hgap hlast)
  rw [if_neg hlast] at hcount
  exact ⟨t, hexec, hst, hlast', BitVec.eq_of_toNat_eq hcount, hgap'⟩

/-- Settles O34, from the frame of an acceptance and the background of every other cycle. -/
theorem gapAfterEveryCycle : Obligations.GapAfterEveryCycle := by
  intro s t hruns h
  refine ⟨fun ⟨i, hacc⟩ => ?_, fun hnone => ?_⟩
  · obtain ⟨-, -, -, hgap, -⟩ := step_accepted_of_accepts hruns h hacc
    exact hgap
  · obtain ⟨-, -, -, hgap⟩ := step_quiet_of_not_accepts hruns h hnone
    exact hgap

/-- Settles O35: the idle clear is part of the background of every cycle without an acceptance. -/
theorem idleClearAfterEveryCycle : Obligations.IdleClearAfterEveryCycle := by
  intro s t hruns h hnone
  obtain ⟨-, -, hclear, -⟩ := step_quiet_of_not_accepts hruns h hnone
  exact hclear

end Sys2Proof.Machine
end

section
/-! SUPPORT. The statements of 44_volume_model.md: what an accepted `VOL_UP`, `VOL_DOWN` or `MUTE` does to the six
volume registers (R150 to R152), and what commands in a row do to a muted volume (R152's round trip, R154). -/

namespace Sys2Proof.Machine

/-! ### The volume registers as one value -/

theorem volume_eq_iff (s : State) (v : Volume) :
    s.volume = v ↔ s.cur = v.cur ∧ s.tens = v.tens ∧ s.ones = v.ones ∧
      s.savCur = v.savCur ∧ s.savTens = v.savTens ∧ s.savOnes = v.savOnes := by
  obtain ⟨cur, tens, ones, savCur, savTens, savOnes⟩ := v
  rw [State.volume, Volume.mk.injEq]

/-- An accepted command completes with its volume rule and the frame every acceptance has (R175). -/
theorem exec_accepted {s : State} {i : Instr} (hgate : GateLetsThrough s i) :
    ∃ t, exec i s = .next t ∧ AcceptedFrame s t i ∧ t.volume = volApply i s.volume :=
  ⟨_, exec_eq i s, commandCycle_accept_frame (volApply i) hgate⟩

theorem volume_of_exec {s t : State} {i : Instr} (hgate : GateLetsThrough s i) (h : exec i s = .next t) :
    t.volume = volApply i s.volume := by
  obtain ⟨t', hexec, -, hvol⟩ := exec_accepted hgate
  cases hexec.symm.trans h
  exact hvol

/-- Two accepted commands, the volume registers kept between them, are their two rules one after the other. -/
theorem volume_of_exec_exec {s t u v : State} {i j : Instr} (hi : GateLetsThrough s i) (hexec : exec i s = .next t)
    (hkept : VolumeKept t u) (hj : GateLetsThrough u j) (hexec' : exec j u = .next v) :
    v.volume = volApply j (volApply i s.volume) := by
  rw [volume_of_exec hj hexec', hkept.volume_eq, volume_of_exec hi hexec]

/-! ### The volume rules on a muted volume -/

/-- A volume of zero has zero digits (R34). -/
theorem DigitsOf.eq_zero {cur : BitVec 7} {tens ones : BitVec 4} (h : DigitsOf cur tens ones) (hcur : cur.toNat = 0) :
    cur = 0 ∧ tens = 0 ∧ ones = 0 := by
  obtain ⟨hsum, -⟩ := h
  have htens : tens.toNat = 0 := by omega
  have hones : ones.toNat = 0 := by omega
  exact ⟨BitVec.eq_of_toNat_eq hcur, BitVec.eq_of_toNat_eq htens, BitVec.eq_of_toNat_eq hones⟩

theorem volUp_of_zero {v : Volume} (hcur : v.cur = 0) (htens : v.tens = 0) (hones : v.ones = 0) :
    volUp v = { v with cur := 1, tens := 0, ones := 1 } := by
  obtain ⟨cur, tens, ones, savCur, savTens, savOnes⟩ := v
  cases hcur; cases htens; cases hones
  rfl

theorem mute_zero_or_saved_zero (v : Volume) : (mute v).cur = 0 ∨ (mute v).savCur = 0 := by
  obtain ⟨-, heq⟩ | ⟨-, heq⟩ := mute_cases v <;> rw [heq]
  · exact .inl rfl
  · exact .inr rfl

/-- From a volume the first `MUTE` engages and the second releases it. From silence the first releases what is saved
and leaves nothing saved, so that the second ends in silence whichever way it goes; there the digits are needed. -/
theorem mute_mute_current {v : Volume} (h : DigitsOf v.cur v.tens v.ones) :
    (mute (mute v)).cur = v.cur ∧ (mute (mute v)).tens = v.tens ∧ (mute (mute v)).ones = v.ones := by
  obtain ⟨-, hfirst⟩ | ⟨hzero, hfirst⟩ := mute_cases v
  · rw [hfirst]
    exact ⟨rfl, rfl, rfl⟩
  · obtain ⟨hcur, htens, hones⟩ := h.eq_zero hzero
    rw [hcur, htens, hones]
    obtain ⟨-, hsecond⟩ | ⟨-, hsecond⟩ := mute_cases (mute v)
    · rw [hsecond]
      exact ⟨rfl, rfl, rfl⟩
    · rw [hsecond, hfirst]
      exact ⟨rfl, rfl, rfl⟩

/-! ### The statements -/

/-- Settles O26: the volume invariant keeps every sum of R150 within its register. -/
theorem volUpCompletes : Obligations.VolUpCompletes := by
  intro s ⟨hsum, h99, htens, hones⟩ hgate
  obtain ⟨t, hexec, hframe, (hvol : t.volume = volUp s.volume)⟩ := exec_accepted hgate
  refine ⟨t, hexec, hframe, ?_⟩
  obtain ⟨hcur : s.cur.toNat = 99, heq⟩ | ⟨hcur : s.cur.toNat ≠ 99, hcarry : s.ones.toNat + 1 = 10, heq⟩ |
    ⟨hcur : s.cur.toNat ≠ 99, hno : s.ones.toNat + 1 ≠ 10, heq⟩ := volUp_cases s.volume <;>
    obtain ⟨hcur', htens', hones', hsaved⟩ := (volume_eq_iff t _).1 (hvol.trans heq)
  · rw [if_pos (BitVec.eq_of_toNat_eq hcur)]
    exact ⟨hsaved, hcur', htens', hones'⟩
  · rw [if_neg (mt (congrArg BitVec.toNat) hcur), if_pos hcarry, hcur', htens']
    exact ⟨hsaved, narrow_toNat (n := s.cur.toNat + 1) (by omega), hones',
      narrow_toNat (n := s.tens.toNat + 1) (by omega)⟩
  · rw [if_neg (mt (congrArg BitVec.toNat) hcur), if_neg hno, hcur', hones']
    exact ⟨hsaved, narrow_toNat (n := s.cur.toNat + 1) (by omega),
      narrow_toNat (n := s.ones.toNat + 1) (by omega), htens'⟩

/-- Settles O27: at a borrow the volume is at least 10 by the invariant, so that there is a ten to take. -/
theorem volDownCompletes : Obligations.VolDownCompletes := by
  intro s ⟨hsum, h99, htens, hones⟩ hgate
  obtain ⟨t, hexec, hframe, (hvol : t.volume = volDown s.volume)⟩ := exec_accepted hgate
  refine ⟨t, hexec, hframe, ?_⟩
  obtain ⟨hcur : s.cur.toNat = 0, heq⟩ | ⟨hcur : s.cur.toNat ≠ 0, hborrow : s.ones.toNat = 0, heq⟩ |
    ⟨hcur : s.cur.toNat ≠ 0, hno : s.ones.toNat ≠ 0, heq⟩ := volDown_cases s.volume <;>
    obtain ⟨hcur', htens', hones', hsaved⟩ := (volume_eq_iff t _).1 (hvol.trans heq)
  · rw [if_pos (BitVec.eq_of_toNat_eq hcur)]
    exact ⟨hsaved, hcur', htens', hones'⟩
  · have hless : t.cur.toNat = s.cur.toNat - 1 := hcur' ▸ narrow_toNat (by omega)
    have htaken : t.tens = s.tens - 1 := htens'
    rw [if_neg (mt (congrArg BitVec.toNat) hcur), if_pos (BitVec.eq_of_toNat_eq hborrow)]
    exact ⟨hsaved, by omega, hones', by bv_omega⟩
  · have hless : t.cur.toNat = s.cur.toNat - 1 := hcur' ▸ narrow_toNat (by omega)
    have hless' : t.ones.toNat = s.ones.toNat - 1 := hones' ▸ narrow_toNat (by omega)
    rw [if_neg (mt (congrArg BitVec.toNat) hcur), if_neg (mt (congrArg BitVec.toNat) hno)]
    exact ⟨hsaved, by omega, by omega, htens'⟩

/-- Settles O28: R152 moves the triples as they stand, so that no invariant is asked for. -/
theorem muteCompletes : Obligations.MuteCompletes := by
  intro s hgate
  obtain ⟨t, hexec, hframe, (hvol : t.volume = mute s.volume)⟩ := exec_accepted hgate
  refine ⟨t, hexec, hframe, ?_⟩
  obtain ⟨hcur : 0 < s.cur.toNat, heq⟩ | ⟨hcur : s.cur.toNat = 0, heq⟩ := mute_cases s.volume <;>
    obtain ⟨hcur', htens', hones', hsavCur', hsavTens', hsavOnes'⟩ := (volume_eq_iff t _).1 (hvol.trans heq)
  · rw [if_neg (mt (congrArg BitVec.toNat) hcur.ne')]
    exact ⟨hsavCur', hsavTens', hsavOnes', hcur', htens', hones'⟩
  · rw [if_pos (BitVec.eq_of_toNat_eq hcur)]
    exact ⟨hcur', htens', hones', hsavCur', hsavTens', hsavOnes'⟩

/-- Settles O32: the second `MUTE` starts from the volume registers the first one left. -/
theorem muteRoundTrip : Obligations.MuteRoundTrip := by
  intro s t u v hinv hgate hexec hkept hgate' hexec'
  have hvol : v.volume = mute (mute s.volume) := volume_of_exec_exec hgate hexec hkept hgate' hexec'
  obtain ⟨hcur, htens, hones, -⟩ := (volume_eq_iff v _).1 hvol
  obtain ⟨hcur', htens', hones'⟩ := mute_mute_current (v := s.volume) hinv
  exact ⟨hcur.trans hcur', htens.trans htens', hones.trans hones'⟩

/-- Settles O33: from silence `VOL_UP` leads to volume 1 whatever is saved, and `MUTE` then saves that. -/
theorem volUpWhileMutedThenMute : Obligations.VolUpWhileMutedThenMute := by
  refine ⟨?_, ?_⟩
  · intro s t u v hinv hzero hgate hexec hkept hgate' hexec'
    obtain ⟨-, htens, hones⟩ := DigitsOf.eq_zero hinv (congrArg BitVec.toNat hzero)
    have hup : volApply .volUp s.volume = { s.volume with cur := 1, tens := 0, ones := 1 } :=
      volUp_of_zero hzero htens hones
    have hmute : volApply .mute { s.volume with cur := 1, tens := 0, ones := 1 } = ⟨0, 0, 0, 1, 0, 1⟩ := rfl
    have hvol := volume_of_exec hgate hexec
    have hvol' := volume_of_exec_exec hgate hexec hkept hgate' hexec'
    rw [hup] at hvol
    rw [hup, hmute] at hvol'
    exact ⟨(volume_eq_iff t _).1 hvol, (volume_eq_iff v _).1 hvol'⟩
  · intro s t hgate hexec
    obtain ⟨hcur, -, -, hsavCur, -⟩ := (volume_eq_iff t _).1 (volume_of_exec hgate hexec)
    rw [hcur, hsavCur]
    exact mute_zero_or_saved_zero s.volume

end Sys2Proof.Machine
end

section
/-! SUPPORT. The statements of 45_lookup_tables.md: the attenuation of every volume (R165, R166) and the pattern of every
digit in both places (R168), read off the constraints K4 and K5 that a legal configuration puts on its tables. -/

namespace Sys2Proof.Machine

/-! ### Attenuation (R165, R166) -/

theorem attenuationFor_mono {c : Config} (h : c.legal = true) {v v' : Nat} {b b' : Byte} (hle : v ≤ v')
    (hv : attenuationFor c v = some b) (hv' : attenuationFor c v' = some b') : b.toNat ≤ b'.toNat := by
  obtain ⟨-, -, -, hmono⟩ := legal_attenLut h
  rw [attenuationFor_eq] at hv hv'
  exact nonDecreasing_getElem? hmono hle hv hv'

/-- Settles O40: `attenuation_for` reads the table as it stands, so each part is a part of K4. -/
theorem attenuationIsATaper : Obligations.AttenuationIsATaper := by
  intro c hlegal
  obtain ⟨-, hfirst, hlast, -⟩ := legal_attenLut hlegal
  refine ⟨(attenuationFor_eq c 0).trans hfirst, (attenuationFor_eq c 99).trans hlast, fun v hv => ?_,
    fun v hv => attenuationFor_of_gt hlegal hv, fun v v' b b' => attenuationFor_mono hlegal⟩
  obtain ⟨b, hb⟩ := attenuationFor_of_le hlegal hv
  exact ⟨b, hb, (attenuationFor_eq c v).symm.trans hb⟩

/-! ### Segments (R168) -/

theorem segmentsFor_ones_zero_ne_blank {c : Config} (h : c.legal = true) {z : Byte}
    (hz : segmentsFor c 0 false = some z) : z ≠ c.segBlank := by
  obtain ⟨-, hblank⟩ := legal_segLut h
  rintro rfl
  exact hblank ((segmentsFor_ones c 0).symm.trans hz)

/-- Settles O41: only the digit 0 depends on the place, and K5 keeps its pattern apart from blank. -/
theorem segmentsOfEveryDigit : Obligations.SegmentsOfEveryDigit := by
  intro c hlegal
  refine ⟨segmentsFor_tens_zero c, ?_, fun d hpos hle => ?_,
    fun d hd => ⟨segmentsFor_of_gt hlegal true hd, segmentsFor_of_gt hlegal false hd⟩⟩
  · obtain ⟨z, hz⟩ := segmentsFor_of_le hlegal false (Nat.zero_le 9)
    exact ⟨z, hz, (segmentsFor_ones c 0).symm.trans hz, segmentsFor_ones_zero_ne_blank hlegal hz⟩
  · have hplace (t : Bool) : segmentsFor c d t = c.segLut[d]? := segmentsFor_of_pos c t (Nat.pos_iff_ne_zero.1 hpos)
    obtain ⟨b, hb⟩ := segmentsFor_of_le hlegal false hle
    have hentry : c.segLut[d]? = some b := (hplace false).symm.trans hb
    exact ⟨b, hentry, (hplace true).trans hentry, hb⟩

end Sys2Proof.Machine
end

section
/-! SUPPORT. The statements of 46_orchestrator.md: the five output cycles (R176 to R180) and the whole output sequence
(R182, R58). -/

namespace Sys2Proof.Machine

/-! ### What every output cycle keeps -/

theorem not_outputting_of_continues {s : State} (hcont : s.continues = true) : ¬ Outputting s.st := by
  obtain ⟨hm, -⟩ := (continues_iff s).1 hcont
  rcases hm with hst | hst | hst | hst | hst <;> simp [hst]

/-- No move of an output state touches the decoder. -/
theorem SequencerMove.transientKept {s u : State} (h : SequencerMove s u) (hout : Outputting s.st) :
    TransientKept s u := by
  cases h with
  | count hcont | timeout hcont => exact absurd hout (not_outputting_of_continues hcont)
  | fallingEdge hst | leadLoEnd hst | leadHiEnd hst | bitLoEnd hst | bitHiEnd hst => simp [Outputting, hst] at hout
  | _ => exact ⟨rfl, rfl, rfl, rfl⟩

/-- What a cycle of any output state does beside its own rule. -/
abbrev OutputFrame (s t : State) : Prop := TransientKept s t ∧ VolumeKept s t ∧ QuietBackground s t

theorem step_of_outputting {s u : State} (hruns : Runs s) (hout : Outputting s.st) (hw : s.sequencerWrites = some u) :
    step s = .next (s.endCycle false u) ∧ OutputFrame s (s.endCycle false u) := by
  have hdone : ¬ InDoneCycle s := by
    rintro ⟨hstop, -⟩
    simp [Outputting, hstop] at hout
  obtain ⟨hquiet, hvol⟩ := quiet_of_writes hw
  have htransient : TransientKept s (s.endCycle false u) := by
    simpa only [TransientKept, State.endCycle_pcnt, State.endCycle_lead, State.endCycle_frame, State.endCycle_nbits]
      using (sequencerWrites_move hdone hw).transientKept hout
  exact ⟨step_next_of_writes hruns hdone hw, htransient, hvol, hquiet⟩

/-! ### `OUT_SEL` (R176) -/

theorem sequencerWrites_of_outSel {s : State} (hst : s.st = .outSel) : s.sequencerWrites = some s.outSelCycle := by
  simp only [State.sequencerWrites, hst]

theorem outSel_step {s : State} (hruns : Runs s) (hst : s.st = .outSel) :
    ∃ t, step s = .next t ∧ OutputFrame s t ∧ t.st = .outOpc ∧ DisplayKept s t ∧ NoEvent s t := by
  obtain ⟨hstep, hframe⟩ := step_of_outputting hruns (.inl hst) (sequencerWrites_of_outSel hst)
  refine ⟨_, hstep, hframe, ?_, ⟨?_, ?_⟩, ?_⟩ <;> simp [State.outSelCycle, NoEvent]

/-- Settles O43, from the cycle's own rule and the ports of `OUT_SEL`. -/
theorem outSelLastsOneCycle : Obligations.OutSelLastsOneCycle := by
  intro s hruns hst
  obtain ⟨t, hstep, ⟨htransient, hvol, hquiet⟩, hnext, hdisplay, hnone⟩ := outSel_step hruns hst
  have hvalid : s.attValid = false := Bool.eq_false_iff.2 (mt (attValid_iff s).1 (by simp [hst]))
  exact ⟨(attSelN_eq_false_iff s).2 (.inl hst), hvalid, t, hstep, hnext, htransient, hvol, hdisplay, hnone, hquiet⟩

/-! ### `OUT_OPC` and `OUT_DATA` (R177, R178)

Both offer a byte until it is acknowledged; they differ in the byte and in the state that follows. -/

/-- The state after a byte has been handed over. -/
def Seq.afterByte : Seq → Seq
  | .outOpc => .outData
  | _ => .outTens

theorem sequencerWrites_of_offered {s : State} {b : Byte} (hvalid : s.attValid = true) (hbyte : s.attByte = some b) :
    s.sequencerWrites =
      some (if s.input.attAck = true then { s.memWrite .att b with st := s.st.afterByte } else s) := by
  rcases (attValid_iff s).1 hvalid with hst | hst
  · cases (attByte_of_outOpc hst).symm.trans hbyte
    rw [sequencerWrites_of_outOpc hst, State.outOpcCycle, hst]
    rfl
  · rw [attByte_of_outData hst, ← attenuationFor_eq] at hbyte
    rw [sequencerWrites_of_outData hst, hbyte, Option.map_some, State.outDataCycle, hst]
    rfl

theorem offered_step {s : State} {b : Byte} (hruns : Runs s) (hvalid : s.attValid = true)
    (hbyte : s.attByte = some b) :
    ∃ t, step s = .next t ∧ OutputFrame s t ∧ DisplayKept s t ∧
      (if s.input.attAck = true then t.st = s.st.afterByte ∧ t.trace = s.trace ++ [(s.cycle, .attByte b)]
       else t.st = s.st ∧ NoEvent s t) := by
  have hout : Outputting s.st := .inr (((attValid_iff s).1 hvalid).imp_right .inl)
  obtain ⟨hstep, hframe⟩ := step_of_outputting hruns hout (sequencerWrites_of_offered hvalid hbyte)
  refine ⟨_, hstep, hframe, ?_⟩
  cases hack : s.input.attAck <;> simp [DisplayKept, NoEvent]

/-- Settles O44: the byte offered in `OUT_OPC` is the opcode byte. -/
theorem outOpcWaitsForAck : Obligations.OutOpcWaitsForAck := by
  intro s hruns hst
  have hvalid := (attValid_iff s).2 (.inl hst)
  have hbyte := attByte_of_outOpc hst
  obtain ⟨t, hstep, ⟨htransient, hvol, hquiet⟩, hdisplay, hack⟩ := offered_step hruns hvalid hbyte
  rw [hst] at hack
  exact ⟨(attSelN_eq_false_iff s).2 (.inr (.inl hst)), hvalid, hbyte, t, hstep, htransient, hvol, hdisplay, hquiet,
    hack⟩

/-- Settles O45: the byte offered in `OUT_DATA` is the table's entry for the volume. -/
theorem outDataWaitsForAck : Obligations.OutDataWaitsForAck := by
  intro s b hruns hst hentry
  have hvalid := (attValid_iff s).2 (.inr hst)
  have hbyte := (attByte_of_outData hst).trans hentry
  obtain ⟨t, hstep, ⟨htransient, hvol, hquiet⟩, hdisplay, hack⟩ := offered_step hruns hvalid hbyte
  rw [hst] at hack
  exact ⟨(attSelN_eq_false_iff s).2 (.inr (.inr hst)), hvalid, hbyte, t, hstep, htransient, hvol, hdisplay, hquiet,
    hack⟩

/-! ### `OUT_TENS` and `OUT_ONES` (R179, R180) -/

theorem segmentsFor_tens_iff (c : Config) (d : BitVec 4) (b : Byte) :
    segmentsFor c d.toNat true = some b ↔ if d = 0 then b = c.segBlank else c.segLut[d.toNat]? = some b := by
  split_ifs with hzero
  · rw [hzero, BitVec.ofNat_eq_ofNat, BitVec.toNat_ofNat, Nat.zero_mod, segmentsFor_tens_zero, Option.some_inj, eq_comm]
  · rw [segmentsFor_of_pos c true fun h => hzero (BitVec.eq_of_toNat_eq h)]

theorem outTens_step {s : State} {b : Byte} (hruns : Runs s) (hst : s.st = .outTens)
    (hb : segmentsFor s.cfg s.tens.toNat true = some b) :
    ∃ t, step s = .next t ∧ OutputFrame s t ∧ t.st = .outOnes ∧ t.segTens = b ∧ t.segOnes = s.segOnes ∧
      t.trace = s.trace ++ [(s.cycle, .dispTens b)] := by
  have hw : s.sequencerWrites = some (s.outTensCycle b) := by
    rw [sequencerWrites_of_outTens hst, hb, Option.map_some]
  obtain ⟨hstep, hframe⟩ := step_of_outputting hruns (by simp [Outputting, hst]) hw
  refine ⟨_, hstep, hframe, ?_, ?_, ?_, ?_⟩ <;> simp [State.outTensCycle]

/-- Settles O46: the tens place shows a blank for a zero and the table's entry otherwise. -/
theorem outTensWritesThePattern : Obligations.OutTensWritesThePattern := by
  intro s b hruns hst hb
  obtain ⟨t, hstep, ⟨htransient, hvol, hquiet⟩, hnext, htens, hones, htrace⟩ :=
    outTens_step hruns hst ((segmentsFor_tens_iff ..).2 hb)
  exact ⟨(tensWe_iff s).2 hst, t, hstep, hnext, htens, hones, htrace, htransient, hvol, hquiet⟩

theorem outOnes_step {s : State} {b : Byte} (hruns : Runs s) (hst : s.st = .outOnes)
    (hb : segmentsFor s.cfg s.ones.toNat false = some b) :
    ∃ t, step s = .next t ∧ OutputFrame s t ∧ t.st = .idle ∧ t.segOnes = b ∧ t.segTens = s.segTens ∧
      t.trace = s.trace ++ [(s.cycle, .dispOnes b)] := by
  have hw : s.sequencerWrites = some (s.outOnesCycle b) := by
    rw [sequencerWrites_of_outOnes hst, hb, Option.map_some]
  obtain ⟨hstep, hframe⟩ := step_of_outputting hruns (by simp [Outputting, hst]) hw
  refine ⟨_, hstep, hframe, ?_, ?_, ?_, ?_⟩ <;> simp [State.outOnesCycle]

/-- Settles O47: the ones place shows the table's entry for every digit. -/
theorem outOnesWritesThePattern : Obligations.OutOnesWritesThePattern := by
  intro s b hruns hst hb
  obtain ⟨t, hstep, ⟨htransient, hvol, hquiet⟩, hnext, hones, htens, htrace⟩ :=
    outOnes_step hruns hst ((segmentsFor_ones ..).trans hb)
  exact ⟨(onesWe_iff s).2 hst, t, hstep, hnext, hones, htens, htrace, htransient, hvol, hquiet⟩

/-! ### Stretches of the output sequence (R182) -/

/-- The samples `xs` lead from `s` to `t` by output cycles, which record the events `events`. -/
structure OutputRun (s : State) (xs : List Input) (events : List (Nat × OutEvent)) (t : State) : Prop where
  run : Sys2Proof.core.run xs.length s = .next t
  inputs : s.inputs = xs ++ t.inputs
  cfg : t.cfg = s.cfg
  cycle : t.cycle = s.cycle + xs.length
  transient : TransientKept s t
  volume : VolumeKept s t
  trace : t.trace = s.trace ++ events

theorem OutputRun.of_step {s t : State} {x : Input} {rest : List Input} {events : List (Nat × OutEvent)}
    (hin : s.inputs = x :: rest) (hstep : step s = .next t) (hframe : OutputFrame s t)
    (htrace : t.trace = s.trace ++ events) : OutputRun s [x] events t := by
  obtain ⟨htransient, hvol, ⟨hcfg, hinputs, -, hcycle⟩, -⟩ := hframe
  exact ⟨run_succ hstep, by rw [hinputs, hin]; rfl, hcfg, hcycle, htransient, hvol, htrace⟩

theorem OutputRun.append {s t u : State} {xs ys : List Input} {e e' : List (Nat × OutEvent)}
    (h : OutputRun s xs e t) (h' : OutputRun t ys e' u) : OutputRun s (xs ++ ys) (e ++ e') u where
  run := by rw [List.length_append, run_append _ h.run, h'.run]
  inputs := by rw [h.inputs, h'.inputs, List.append_assoc]
  cfg := h'.cfg.trans h.cfg
  cycle := by rw [h'.cycle, h.cycle, List.length_append, Nat.add_assoc]
  transient := by
    obtain ⟨h1, h2, h3, h4⟩ := h.transient
    obtain ⟨h1', h2', h3', h4'⟩ := h'.transient
    exact ⟨h1'.trans h1, h2'.trans h2, h3'.trans h3, h4'.trans h4⟩
  volume := by
    obtain ⟨h1, h2, h3, h4, h5, h6⟩ := h.volume
    obtain ⟨h1', h2', h3', h4', h5', h6'⟩ := h'.volume
    exact ⟨h1'.trans h1, h2'.trans h2, h3'.trans h3, h4'.trans h4, h5'.trans h5, h6'.trans h6⟩
  trace := by rw [h'.trace, h.trace, List.append_assoc]

theorem OutputRun.inputs_eq {s t : State} {xs rest : List Input} {events : List (Nat × OutEvent)}
    (h : OutputRun s xs events t) (hin : s.inputs = xs ++ rest) : t.inputs = rest :=
  List.append_cancel_left (h.inputs.symm.trans hin)

theorem OutputRun.legal {s t : State} {xs : List Input} {events : List (Nat × OutEvent)}
    (h : OutputRun s xs events t) (hlegal : s.cfg.legal = true) : t.cfg.legal = true := by
  rw [h.cfg, hlegal]

/-- The three bytes an output sequence looks up: attenuation, tens pattern, ones pattern. -/
structure OutputBytes (s : State) (a bt bo : Byte) : Prop where
  attenuation : attenuationFor s.cfg s.cur.toNat = some a
  tens : segmentsFor s.cfg s.tens.toNat true = some bt
  ones : segmentsFor s.cfg s.ones.toNat false = some bo

theorem exists_outputBytes {s : State} (hlegal : s.cfg.legal = true) (hvol : VolumeInv s) :
    ∃ a bt bo, OutputBytes s a bt bo := by
  obtain ⟨-, hcur, htens, hones⟩ := hvol
  obtain ⟨a, ha⟩ := attenuationFor_of_le hlegal hcur
  obtain ⟨bt, hbt⟩ := segmentsFor_of_le hlegal true htens
  obtain ⟨bo, hbo⟩ := segmentsFor_of_le hlegal false hones
  exact ⟨a, bt, bo, ha, hbt, hbo⟩

/-- The sequence carries the volume of its start: its cycles change neither the volume nor the tables. -/
theorem OutputRun.bytes {s t : State} {xs : List Input} {events : List (Nat × OutEvent)} {a bt bo : Byte}
    (h : OutputRun s xs events t) (hb : OutputBytes s a bt bo) : OutputBytes t a bt bo := by
  obtain ⟨hcur, htens, hones, -⟩ := h.volume
  obtain ⟨ha, hbt, hbo⟩ := hb
  exact ⟨by rw [h.cfg, hcur, ha], by rw [h.cfg, htens, hbt], by rw [h.cfg, hones, hbo]⟩

theorem input_of_inputs {s : State} {x : Input} {rest : List Input} (hin : s.inputs = x :: rest) : s.input = x := by
  rw [State.input, hin]

theorem runs_of_inputs {s : State} {x : Input} {rest : List Input} (hlegal : s.cfg.legal = true)
    (hin : s.inputs = x :: rest) (hrst : x.rst = false) : Runs s :=
  ⟨hlegal, by rw [input_of_inputs hin, hrst]⟩

/-- What the ports offer depends on `st`, the volume and the configuration only. -/
theorem OutputRun.attByte_eq {s t : State} {xs : List Input} {events : List (Nat × OutEvent)}
    (h : OutputRun s xs events t) (hst : t.st = s.st) : t.attByte = s.attByte := by
  obtain ⟨hcur, -⟩ := h.volume
  rw [State.attByte, State.attByte, hst, h.cfg, hcur]

/-- R177, R178 and R58: a byte offered is handed over in the first cycle that acknowledges it, whatever the delay. -/
theorem byte_handed_over {s : State} {b : Byte} {d : List Input} {x : Input} {rest : List Input}
    (hlegal : s.cfg.legal = true) (hvalid : s.attValid = true) (hbyte : s.attByte = some b)
    (hin : s.inputs = d ++ x :: rest) (hdelay : ∀ y ∈ d, y.rst = false ∧ y.attAck = false) (hrst : x.rst = false)
    (hack : x.attAck = true) :
    ∃ t, t.st = s.st.afterByte ∧ OutputRun s (d ++ [x]) [(s.cycle + d.length, .attByte b)] t := by
  induction d generalizing s with
  | nil =>
    obtain ⟨t, hstep, hframe, -, hend⟩ := offered_step (runs_of_inputs hlegal hin hrst) hvalid hbyte
    rw [input_of_inputs hin, if_pos hack] at hend
    exact ⟨t, hend.1, .of_step hin hstep hframe hend.2⟩
  | cons y d ih =>
    obtain ⟨⟨hrstY, hackY⟩, hdelay⟩ := List.forall_mem_cons.1 hdelay
    obtain ⟨u, hstep, hframe, -, hend⟩ := offered_step (runs_of_inputs hlegal hin hrstY) hvalid hbyte
    rw [input_of_inputs hin, if_neg (Bool.eq_false_iff.1 hackY)] at hend
    obtain ⟨hst, hnone⟩ := hend
    have hwait : OutputRun s [y] [] u := .of_step hin hstep hframe (by rw [List.append_nil]; exact hnone)
    have hvalid' : u.attValid = true := by rw [attValid_iff, hst, ← attValid_iff, hvalid]
    obtain ⟨t, hend, hrun⟩ := ih (hwait.legal hlegal) hvalid' ((hwait.attByte_eq hst).trans hbyte)
      (hwait.inputs_eq hin) hdelay
    refine ⟨t, hend.trans (by rw [hst]), ?_⟩
    have hcycle : u.cycle + d.length = s.cycle + (y :: d).length := by
      rw [hwait.cycle, Nat.add_assoc, ← List.length_append, List.singleton_append]
    exact hcycle ▸ hwait.append hrun

/-- R176: the first cycle of the sequence. -/
theorem select_run {s : State} {x : Input} {rest : List Input} (hlegal : s.cfg.legal = true) (hst : s.st = .outSel)
    (hin : s.inputs = x :: rest) (hrst : x.rst = false) : ∃ t, t.st = .outOpc ∧ OutputRun s [x] [] t := by
  obtain ⟨t, hstep, hframe, hnext, -, hnone⟩ := outSel_step (runs_of_inputs hlegal hin hrst) hst
  exact ⟨t, hnext, .of_step hin hstep hframe (by rw [List.append_nil]; exact hnone)⟩

/-- R179 and R180: the last two cycles, which write the displays. -/
theorem displays_run {s : State} {a bt bo : Byte} {x y : Input} {rest : List Input} (hlegal : s.cfg.legal = true)
    (hb : OutputBytes s a bt bo) (hst : s.st = .outTens) (hin : s.inputs = x :: y :: rest) (hx : x.rst = false)
    (hy : y.rst = false) :
    ∃ t, t.st = .idle ∧ t.segTens = bt ∧ t.segOnes = bo ∧
      OutputRun s [x, y] [(s.cycle, .dispTens bt), (s.cycle + 1, .dispOnes bo)] t := by
  obtain ⟨u, hstep, hframe, hst', htens, -, htrace⟩ := outTens_step (runs_of_inputs hlegal hin hx) hst hb.tens
  have hrun : OutputRun s [x] _ u := .of_step hin hstep hframe htrace
  have hin' := hrun.inputs_eq hin
  obtain ⟨t, hstep', hframe', hidle, hones, hkept, htrace'⟩ :=
    outOnes_step (runs_of_inputs (hrun.legal hlegal) hin' hy) hst' (hrun.bytes hb).ones
  rw [hrun.cycle] at htrace'
  exact ⟨t, hidle, hkept.trans htens, hones, hrun.append (.of_step hin' hstep' hframe' htrace')⟩

/-- Settles O48: the select cycle, the two bytes after their delays and the two display writes, one after the other. -/
theorem outputSequenceRuns : Obligations.OutputSequenceRuns := by
  intro s x0 x1 x2 x3 x4 d1 d2 rest hlegal hvol hst hin hdelay hrst hack1 hack2
  obtain ⟨hdelay1, hdelay2⟩ := List.forall_mem_append.1 hdelay
  obtain ⟨h0, h1, h2, h3, h4⟩ : x0.rst = false ∧ x1.rst = false ∧ x2.rst = false ∧ x3.rst = false ∧ x4.rst = false := by
    simpa using hrst
  obtain ⟨a, bt, bo, hb⟩ := exists_outputBytes hlegal hvol
  obtain ⟨u, hstU, hsel⟩ := select_run hlegal hst hin h0
  have hinU := hsel.inputs_eq hin
  obtain ⟨v, hstV, hopc⟩ := byte_handed_over (hsel.legal hlegal) ((attValid_iff u).2 (.inl hstU))
    (attByte_of_outOpc hstU) hinU hdelay1 h1 hack1
  rw [hstU] at hstV
  have hrunV := hsel.append hopc
  have hinV : v.inputs = d2 ++ x2 :: x3 :: x4 :: rest := hopc.inputs_eq (by rw [hinU, List.append_assoc]; rfl)
  obtain ⟨w, hstW, hdata⟩ := byte_handed_over (hrunV.legal hlegal) ((attValid_iff v).2 (.inr hstV))
    ((attByte_of_outData hstV).trans (hrunV.bytes hb).attenuation) hinV hdelay2 h2 hack2
  rw [hstV] at hstW
  have hrunW := hrunV.append hdata
  have hinW : w.inputs = x3 :: x4 :: rest := hdata.inputs_eq (by rw [hinV, List.append_assoc]; rfl)
  obtain ⟨t, hidle, htens, hones, hdisplays⟩ :=
    displays_run (hrunW.legal hlegal) (hrunW.bytes hb) hstW hinW h3 h4
  have hall := hrunW.append hdisplays
  have hcount : 5 + d1.length + d2.length = ([x0] ++ (d1 ++ [x1]) ++ (d2 ++ [x2]) ++ [x3, x4]).length := by
    simp only [List.length_append, List.length_cons, List.length_nil]
    omega
  refine ⟨t, a, bt, bo, hcount ▸ hall.run, hb.attenuation, hb.tens, hb.ones, hidle, hdisplays.inputs_eq hinW, htens,
    hones, hall.volume, hall.transient, by rw [hall.cycle, ← hcount]; omega, ?_⟩
  have hcycleU : u.cycle = s.cycle + 1 := hsel.cycle
  have hcycleV : v.cycle = s.cycle + 2 + d1.length := by
    rw [hopc.cycle, hcycleU, List.length_append, List.length_singleton]
    omega
  have hcycleW : w.cycle = s.cycle + 3 + d1.length + d2.length := by
    rw [hdata.cycle, hcycleV, List.length_append, List.length_singleton]
    omega
  have hcycleLast : w.cycle + 1 = s.cycle + 4 + d1.length + d2.length := by omega
  rw [hall.trace, hcycleU, hcycleV, hcycleLast, hcycleW, hsel.cfg]
  rfl

end Sys2Proof.Machine
end

section
/-! SUPPORT. The statements of 60_exceptions.md: no cycle of a block that meets the invariant stops it (R200), the abort
of a timeout (R202), and the silent fall-backs of R201, when each is named and what it leaves. -/

namespace Sys2Proof.Machine

/-! ### No cycle stops the block (R200) -/

/-- Only the three lookups can fail, and the volume invariant keeps them inside their tables. -/
theorem exists_sequencerWrites {s : State} (hlegal : s.cfg.legal = true) (hvol : VolumeInv s) :
    ∃ u, s.sequencerWrites = some u := by
  obtain ⟨a, bt, bo, ha, hbt, hbo⟩ := exists_outputBytes hlegal hvol
  unfold State.sequencerWrites
  cases s.st
  case outData => exact ⟨_, congrArg (Option.map _) ha⟩
  case outTens => exact ⟨_, congrArg (Option.map _) hbt⟩
  case outOnes => exact ⟨_, congrArg (Option.map _) hbo⟩
  all_goals exact ⟨_, rfl⟩

/-- Settles O10: a reset and a Done cycle always answer a next state, and the sequencer has its writes. -/
theorem invariantStatesNeverStop : Obligations.InvariantStatesNeverStop := by
  rintro s ⟨hlegal, hvol, -⟩
  cases hrst : s.input.rst with
  | true => exact ⟨_, step_of_rst hlegal hrst⟩
  | false =>
    by_cases hdone : InDoneCycle s
    · obtain ⟨t, hstep, -⟩ := step_of_done ⟨hlegal, hrst⟩ hdone
      exact ⟨t, hstep⟩
    · obtain ⟨u, hw⟩ := exists_sequencerWrites hlegal hvol
      exact ⟨_, step_next_of_writes ⟨hlegal, hrst⟩ hdone hw⟩

/-! ### The abort of a timeout (R93, R202) -/

/-- An aborted frame ends like a dropped word. -/
theorem timeout_step {s : State} (hruns : Runs s) (hcont : s.continues = true)
    (hceil : s.cfg.pulseCeil ≤ s.pcnt + 1) : ∃ t, step s = .next t ∧ TurnedAway s t := by
  obtain ⟨hm, -⟩ := (continues_iff s).1 hcont
  have hw : s.sequencerWrites = some s.abort := by
    rw [sequencerWrites_of_continues hcont, State.holdPhase, if_neg (Nat.not_lt.2 hceil)]
  obtain ⟨hstep, hkept⟩ := step_of_receiving hruns (.inr hm) (not_inDoneCycle_of_continues hcont) hw
  have hclear : TransientCleared (s.endCycle false s.abort) := by simp [TransientCleared]
  exact ⟨_, hstep, State.endCycle_st .., hclear, hkept⟩

/-- Settles O16: the sample at the state's level continues the phase, which the ceiling aborts. -/
theorem timeoutAborts : Obligations.TimeoutAborts := fun s hruns hm hlevel hceil =>
  timeout_step hruns ((continues_iff s).2 ⟨hm, hlevel⟩) hceil

/-! ### When each fall-back is named (R201) -/

theorem outputting_iff (q : Seq) : Outputting q ↔ q.level = none ∧ q ≠ .idle := by
  cases q <;> simp [Outputting, Seq.level]

/-- The four kinds of cycle that have a cause, and the cause of each: a recognised command's, a dropped word's, a
timeout, and an edge missed in an output state. -/
theorem cause_eq_some_iff {s : State} {k : Cause} (hrst : s.input.rst = false) :
    s.cause = some k ↔
      (InDoneCycle s ∧ ∃ i, decode s.cfg s.frame = .ok i ∧ s.commandCause i = some k) ∨
      (InDoneCycle s ∧ ∃ r, decode s.cfg s.frame = .error r ∧ k = .dropped r) ∨
      (s.continues = true ∧ s.cfg.pulseCeil ≤ s.pcnt + 1 ∧ k = .timeout s.st) ∨
      (Outputting s.st ∧ s.lineEdge = true ∧ k = .missedFrame) := by
  constructor
  · intro h
    obtain ⟨-, ⟨i, hdone, hdec, hk⟩ | ⟨r, hdone, hdec, hk⟩ | ⟨-, htimeout⟩ | ⟨-, hlevel, hidle, hedge⟩⟩ :=
      cause_cases h
    · exact .inl ⟨hdone, i, hdec, hk⟩
    · exact .inr (.inl ⟨hdone, r, hdec, hk⟩)
    · exact .inr (.inr (.inl htimeout))
    · exact .inr (.inr (.inr ⟨(outputting_iff _).2 ⟨hlevel, hidle⟩, hedge⟩))
  · rintro (⟨hdone, i, hdec, hk⟩ | ⟨hdone, r, hdec, rfl⟩ | ⟨hcont, hceil, rfl⟩ | ⟨hout, hedge, rfl⟩)
    · rw [cause_of_accepted hrst hdone hdec, hk]
    · exact cause_of_dropped hrst hdone hdec
    · have hlevel : s.st.level = some s.input.irIn := by simpa [State.continues] using hcont
      rw [cause_of_pulse hrst (not_inDoneCycle_of_continues hcont) hlevel, if_pos ⟨hcont, hceil⟩]
    · obtain ⟨hlevel, hidle⟩ := (outputting_iff _).1 hout
      have hdone : ¬ InDoneCycle s := not_inDoneCycle_of_st rfl fun hstop => by simp [hstop, Seq.level] at hlevel
      rw [cause_of_still hrst hdone hlevel, if_pos ⟨hidle, hedge⟩]

theorem continues_iff_of_level {s : State} {b : Bool} (hlevel : s.st.level = some b) :
    s.continues = true ↔ s.input.irIn = b := by
  rw [State.continues, hlevel, Option.some_beq_some, beq_iff_eq, eq_comm]

/-! Row by row: only one of the four kinds has the row's cause, and of a recognised command's causes only one case. -/

section
variable {s : State} (hrst : s.input.rst = false)
include hrst

theorem cause_timeout_iff (q : Seq) :
    s.cause = some (.timeout q) ↔ s.continues = true ∧ s.cfg.pulseCeil ≤ s.pcnt + 1 ∧ q = s.st := by
  simp [cause_eq_some_iff hrst, commandCause_iff, noOpCause_iff]

/-- The five rows `TIMEOUT_<st>`, each with the level its state measures. -/
theorem cause_timeout_row {q : Seq} {b : Bool} (hlevel : q.level = some b) :
    s.cause = some (.timeout q) ↔ s.st = q ∧ s.input.irIn = b ∧ s.cfg.pulseCeil ≤ s.pcnt + 1 := by
  rw [cause_timeout_iff hrst]
  constructor
  · rintro ⟨hcont, hceil, rfl⟩
    exact ⟨rfl, (continues_iff_of_level hlevel).1 hcont, hceil⟩
  · rintro ⟨rfl, hin, hceil⟩
    exact ⟨(continues_iff_of_level hlevel).2 hin, hceil, rfl⟩

theorem cause_dropped_iff (r : Reject) :
    s.cause = some (.dropped r) ↔ InDoneCycle s ∧ decode s.cfg s.frame = .error r := by
  simp [cause_eq_some_iff hrst, commandCause_iff, noOpCause_iff]

theorem cause_gateMinGap_iff :
    s.cause = some .gateMinGap ↔
      InDoneCycle s ∧ (∃ i, decode s.cfg s.frame = .ok i) ∧ s.gap < s.cfg.tGap := by
  simp [cause_eq_some_iff hrst, commandCause_iff, noOpCause_iff]

theorem cause_gateRepeatWait_iff :
    s.cause = some .gateRepeatWait ↔ InDoneCycle s ∧ ∃ i, decode s.cfg s.frame = .ok i ∧ s.last = some i ∧
      s.cfg.tGap ≤ s.gap ∧ s.gap < s.cfg.tRepeat ∧ ¬ (s.rcount = 5 ∧ i ≠ .mute) := by
  simp [cause_eq_some_iff hrst, commandCause_iff, noOpCause_iff, and_left_comm]

theorem cause_satHigh_iff : s.cause = some .satHigh ↔ Accepts s .volUp ∧ s.cur = 99 := by
  simp [cause_eq_some_iff hrst, commandCause_iff, noOpCause_iff, Accepts, and_assoc]

theorem cause_satLow_iff : s.cause = some .satLow ↔ Accepts s .volDown ∧ s.cur = 0 := by
  simp [cause_eq_some_iff hrst, commandCause_iff, noOpCause_iff, Accepts, and_assoc]

theorem cause_muteSilent_iff :
    s.cause = some .muteSilent ↔
      Accepts s .mute ∧ s.cur = 0 ∧ s.savCur = 0 ∧ s.savTens = 0 ∧ s.savOnes = 0 := by
  simp [cause_eq_some_iff hrst, commandCause_iff, noOpCause_iff, Accepts, and_assoc]

theorem cause_missedFrame_iff :
    s.cause = some .missedFrame ↔ Outputting s.st ∧ s.cycle ≠ 0 ∧ s.irQ ≠ s.input.irIn := by
  simp [cause_eq_some_iff hrst, commandCause_iff, noOpCause_iff, lineEdge_iff]

end

/-! ### The reasons of a dropped word, as numbers (R121) -/

theorem decode_eq_unknownCmd_iff (c : Config) (w : Word) :
    decode c w = .error .unknownCmd ↔ w.toNat % 256 = c.addr.toNat ∧ w.toNat / 256 % 256 = c.addr.toNat ∧
      w.toNat / 16777216 = 255 - w.toNat / 65536 % 256 ∧ w.toNat / 65536 % 256 ≠ c.cmdUp.toNat ∧
      w.toNat / 65536 % 256 ≠ c.cmdDown.toNat ∧ w.toNat / 65536 % 256 ≠ c.cmdMute.toNat := by
  simp only [ne_eq, ← addr0_eq_iff, ← addr1_eq_iff, ← cmdByte_eq_iff, ← chkByte_eq_not_iff]
  obtain h | h | h | ⟨haddr0, haddr1, hchk, -⟩ := decode_framing_cases c w
  · simp [h]
  · simp [h]
  · simp [h]
  · rw [decode_of_framed haddr0 haddr1 hchk, and_iff_right haddr0, and_iff_right haddr1, and_iff_right hchk]
    split_ifs <;> simp [*]

/-- A frame is always four bytes. -/
theorem decode_ne_notAFrame (c : Config) (w : Word) : decode c w ≠ .error .notAFrame := by
  unfold decode
  split_ifs <;> simp

/-! ### What each fall-back leaves (R201) -/

theorem TurnedAway.keeps {s t : State} (h : TurnedAway s t) : VolumeKept s t ∧ TransientCleared t := by
  obtain ⟨-, hclear, hvol, -⟩ := h
  exact ⟨hvol, hclear⟩

/-- An output cycle leads to an output state or to `IDLE`, whatever the line does (R112). -/
theorem SequencerMove.not_measuring {s u : State} (h : SequencerMove s u) (hout : Outputting s.st) :
    ¬ Measuring u.st := by
  cases h with
  | count hcont | timeout hcont => exact absurd hout (not_outputting_of_continues hcont)
  | fallingEdge hst | idleWait hst | leadLoEnd hst | leadHiEnd hst | bitLoEnd hst | bitHiEnd hst =>
    simp [Outputting, hst] at hout
  | opcodeWait hst | dataWait hst => simp [hst]
  | _ => simp [State.outSelCycle, State.outTensCycle, State.outOnesCycle]

section
variable {s t : State} (hruns : Runs s) (h : step s = .next t)
include hruns h

theorem turnedAway_of_timeout {q : Seq} (hk : s.cause = some (.timeout q)) : Measuring q ∧ TurnedAway s t := by
  obtain ⟨hcont, hceil, rfl⟩ := (cause_timeout_iff hruns.2 q).1 hk
  obtain ⟨t', hstep, hframe⟩ := timeout_step hruns hcont hceil
  cases hstep.symm.trans h
  exact ⟨((continues_iff s).1 hcont).1, hframe⟩

theorem turnedAway_of_dropped {r : Reject} (hk : s.cause = some (.dropped r)) : r ≠ .notAFrame ∧ TurnedAway s t := by
  obtain ⟨hdone, hdec⟩ := (cause_dropped_iff hruns.2 r).1 hk
  cases (step_of_unrec hruns hdone hdec).symm.trans h
  refine ⟨?_, dropCycle_frame s⟩
  rintro rfl
  exact decode_ne_notAFrame _ _ hdec

/-- Below the minimum gap the gate lets nothing through, and in the wait R132 refuses the command it names. -/
theorem turnedAway_of_gate (hk : s.cause = some .gateMinGap ∨ s.cause = some .gateRepeatWait) : TurnedAway s t := by
  obtain ⟨hdone, i, hdec, hgate⟩ :
      InDoneCycle s ∧ ∃ i, decode s.cfg s.frame = .ok i ∧ ¬ GateLetsThrough s i := by
    rcases hk with hk | hk
    · obtain ⟨hdone, ⟨i, hdec⟩, hgap⟩ := (cause_gateMinGap_iff hruns.2).1 hk
      exact ⟨hdone, i, hdec, not_gateLetsThrough_of_gap_lt i hgap⟩
    · obtain ⟨hdone, i, hdec, hlast, hgap, hwait, hslow⟩ := (cause_gateRepeatWait_iff hruns.2).1 hk
      exact ⟨hdone, i, hdec, by
        rw [gateLetsThrough_same_iff hgap hlast]
        exact not_or.2 ⟨Nat.not_le.2 hwait, hslow⟩⟩
  cases (step_of_command hruns hdone hdec).symm.trans h
  exact commandCycle_reject_frame (volApply i) hgate

/-- An accepted command whose volume rule changes nothing here. -/
theorem volumeKept_of_accepts {i : Instr} (hacc : Accepts s i) (hsame : volApply i s.volume = s.volume) :
    VolumeKept s t := by
  obtain ⟨hdone, hdec, hgate⟩ := hacc
  have hexec : exec i s = .next t := (stepRunsDecodedCommand s i hruns hdone hdec).symm.trans h
  exact (volume_eq_iff t s.volume).1 ((volume_of_exec hgate hexec).trans hsame)

theorem effect_of_satHigh (hk : s.cause = some .satHigh) : VolumeKept s t ∧ AcceptedFrame s t .volUp := by
  obtain ⟨hacc, hcur⟩ := (cause_satHigh_iff hruns.2).1 hk
  have hsame : volUp s.volume = s.volume := if_pos (congrArg BitVec.toNat hcur)
  exact ⟨volumeKept_of_accepts hruns h hacc hsame, step_accepted_of_accepts hruns h hacc⟩

theorem effect_of_satLow (hk : s.cause = some .satLow) : VolumeKept s t ∧ AcceptedFrame s t .volDown := by
  obtain ⟨hacc, hcur⟩ := (cause_satLow_iff hruns.2).1 hk
  have hsame : volDown s.volume = s.volume := if_pos (congrArg BitVec.toNat hcur)
  exact ⟨volumeKept_of_accepts hruns h hacc hsame, step_accepted_of_accepts hruns h hacc⟩

/-- Releasing an empty saved triple zeroes the digits, which a volume of zero has already (R34). -/
theorem effect_of_muteSilent (hk : s.cause = some .muteSilent) :
    (VolumeInv s → VolumeKept s t) ∧ AcceptedFrame s t .mute := by
  obtain ⟨hacc, hcur, hsavCur, hsavTens, hsavOnes⟩ := (cause_muteSilent_iff hruns.2).1 hk
  refine ⟨fun hvol => volumeKept_of_accepts hruns h hacc ?_, step_accepted_of_accepts hruns h hacc⟩
  obtain ⟨-, htens, hones⟩ := DigitsOf.eq_zero hvol (congrArg BitVec.toNat hcur)
  have hsilent : s.volume = ⟨0, 0, 0, 0, 0, 0⟩ :=
    (volume_eq_iff s _).2 ⟨hcur, htens, hones, hsavCur, hsavTens, hsavOnes⟩
  rw [hsilent]
  rfl

theorem effect_of_missedFrame (hk : s.cause = some .missedFrame) : ¬ Measuring t.st ∧ OutputFrame s t := by
  obtain ⟨hout, -⟩ := (cause_missedFrame_iff hruns.2).1 hk
  have hdone : ¬ InDoneCycle s := by
    rintro ⟨hstop, -⟩
    simp [Outputting, hstop] at hout
  obtain ⟨u, hw, rfl⟩ := writes_of_step hruns hdone h
  rw [State.endCycle_st]
  exact ⟨(sequencerWrites_move hdone hw).not_measuring hout, (step_of_outputting hruns hout hw).2⟩

end

/-! ### The statements on R201 -/

/-- Settles O51, cause by cause. -/
theorem fallBacksKeepTheVolume : Obligations.FallBacksKeepTheVolume := by
  intro s t k hruns hinv hk h
  cases k with
  | timeout q => exact .inl (turnedAway_of_timeout hruns h hk).2.keeps
  | dropped r => exact .inl (turnedAway_of_dropped hruns h hk).2.keeps
  | gateMinGap => exact .inl (turnedAway_of_gate hruns h (.inl hk)).keeps
  | gateRepeatWait => exact .inl (turnedAway_of_gate hruns h (.inr hk)).keeps
  | satHigh =>
    obtain ⟨hvol, -, -, -, -, hclear, -⟩ := effect_of_satHigh hruns h hk
    exact .inl ⟨hvol, hclear⟩
  | satLow =>
    obtain ⟨hvol, -, -, -, -, hclear, -⟩ := effect_of_satLow hruns h hk
    exact .inl ⟨hvol, hclear⟩
  | muteSilent =>
    obtain ⟨hvol, -, -, -, -, hclear, -⟩ := effect_of_muteSilent hruns h hk
    exact .inl ⟨hvol hinv, hclear⟩
  | missedFrame =>
    obtain ⟨-, htransient, hvol, -⟩ := effect_of_missedFrame hruns h hk
    exact .inr ⟨rfl, hvol, htransient⟩

/-- Settles O52: the rows' conditions one by one, and then what each row leaves; a word is dropped for the first of
R121's tests that it fails. -/
theorem fallBackDestinations : Obligations.FallBackDestinations := by
  refine ⟨fun s => cause_of_rst, fun s t hruns h => ?_⟩
  have hrst : s.input.rst = false := hruns.2
  obtain ⟨hbadAddr0, hbadAddr1, hbadCheck, -⟩ := validateFollowsItsTests s.cfg s.frame _ _ _ _ rfl rfl rfl rfl
  have hdropped {r : Reject} {p : Prop} (hdec : decode s.cfg s.frame = .error r ↔ p) :
      s.cause = some (.dropped r) ↔ InDoneCycle s ∧ p :=
    (cause_dropped_iff hrst r).trans (and_congr_right' hdec)
  exact ⟨cause_timeout_row hrst rfl, cause_timeout_row hrst rfl, cause_timeout_row hrst rfl, cause_timeout_row hrst rfl,
    cause_timeout_row hrst rfl, fun q => turnedAway_of_timeout hruns h,
    hdropped hbadAddr0, hdropped hbadAddr1, hdropped hbadCheck, hdropped (decode_eq_unknownCmd_iff s.cfg s.frame),
    fun r => turnedAway_of_dropped hruns h,
    cause_gateMinGap_iff hrst, cause_gateRepeatWait_iff hrst, turnedAway_of_gate hruns h,
    cause_satHigh_iff hrst, cause_satLow_iff hrst, cause_muteSilent_iff hrst,
    effect_of_satHigh hruns h, effect_of_satLow hruns h, effect_of_muteSilent hruns h,
    cause_missedFrame_iff hrst, effect_of_missedFrame hruns h⟩

end Sys2Proof.Machine
end

section
/-! SUPPORT. The statements of 70_reset_and_hazards.md: the first cycle after a reset (R220) and the start-up output
sequence (R221). -/

namespace Sys2Proof.Machine

/-- Settles O7: the reset cycle's fields are written out, and the ports of its `OUT_SEL` follow from them. -/
theorem resetRestartsTheCycleCount : Obligations.ResetRestartsTheCycleCount := by
  intro s t hlegal hrst h
  cases (step_of_rst hlegal hrst).symm.trans h
  exact ⟨rfl, rfl, rfl, rfl, rfl⟩

theorem volumeInv_resetWith (c : Config) : VolumeInv (State.resetWith c) := digitsOf_zero

/-- Settles O49: the output sequence without delays, from the reset state. Its bytes are those of volume 0: the first
attenuation is 0 by K4, and a zero in the tens place is blank. -/
theorem startUpDrivesVolumeZero : Obligations.StartUpDrivesVolumeZero := by
  intro c xs rest z hlegal hlen hxs hz
  obtain ⟨x0, x1, x2, x3, x4, rfl⟩ : ∃ x0 x1 x2 x3 x4, xs = [x0, x1, x2, x3, x4] :=
    match xs, hlen with
    | [x0, x1, x2, x3, x4], _ => ⟨x0, x1, x2, x3, x4, rfl⟩
  obtain ⟨t, a, bt, bo, hrun, ha, hbt, hbo, hst, -, htens, hones, ⟨hcur, -⟩, -, hcycle, htrace⟩ :=
    outputSequenceRuns { State.resetWith c with inputs := [x0, x1, x2, x3, x4] ++ rest } x0 x1 x2 x3 x4 [] [] rest
      hlegal (volumeInv_resetWith c) rfl rfl (by simp) (fun x hx => (hxs x hx).1) (hxs x1 (by simp)).2
      (hxs x2 (by simp)).2
  obtain ⟨-, hfirst, -⟩ := legal_attenLut hlegal
  cases ha.symm.trans hfirst
  cases hbt.symm.trans (segmentsFor_tens_zero c)
  cases hbo.symm.trans ((segmentsFor_ones c 0).trans hz)
  exact ⟨t, hrun, hst, htrace, htens, hones, hcur, hcycle⟩

end Sys2Proof.Machine
end
